-- ==== Sys2Proof/Word.lean ====
section
/-! DEFINITION. The word types of the block, one name for each width the spec uses (R12: every quantity is unsigned). -/

namespace Sys2Proof

/-- A register of the REG space, 32 bits (R33). -/
abbrev Word := BitVec 32

/-- One byte of the OUT space (R50). -/
abbrev Byte := BitVec 8

/-- One cell of the GRID space, 2 bits (R35). -/
abbrev Cell := BitVec 2

/-- A palette index inside a pixel byte, 4 bits (R89). -/
abbrev Nibble := BitVec 4

/-- A 24-bit RGB colour value: red 23:16, green 15:8, blue 7:0 (R30). -/
abbrev Colour := BitVec 24

/-- A byte offset in the REG space, 12 bits (R51). -/
abbrev RegOffset := BitVec 12

/-- A cell address on the GRID port, 22 bits (R51). -/
abbrev GridAddr := BitVec 22

end Sys2Proof
end

