-- ==== Sys2Proof/Config.lean ====
section
/-! DEFINITION. What is fixed for the machine: the constants of R9 and the two parameters of R11. -/

namespace Sys2Proof

/-- `CELL_SIZE` (R9): side of one rendered grid cell, in pixels. -/
abbrev cellSize : Nat := 32

/-- `FRAME` (R9): width of the border band of a cell, in pixels. -/
abbrev frameWidth : Nat := 1

/-- `BPP` (R9): bits per pixel. -/
abbrev bitsPerPixel : Nat := 4

/-- `PLANES` (R9): colour-plane count. -/
abbrev colourPlanes : Nat := 1

/-- `PALETTE_ENTRIES` (R9): palette slots written. -/
abbrev paletteEntries : Nat := 16

/-- `FILE_HEADER_SIZE` (R9), in bytes. -/
abbrev fileHeaderSize : Nat := 14

/-- `INFO_HEADER_SIZE` (R9), in bytes. -/
abbrev infoHeaderSize : Nat := 12

/-- `PALETTE_SIZE` (R9), in bytes. -/
abbrev paletteSize : Nat := 48

/-- `PIXEL_OFFSET` (R9): offset of the first pixel byte, 14 + 12 + 48. -/
abbrev pixelOffset : Nat := 74

/-- `MAX_SIDE` (R9): the largest image side the 16-bit width and height fields hold. -/
abbrev maxSide : Nat := 65535

/-- The parameters R11 leaves to the implementation, "which the model takes as arguments". They are held as data, so that
every claim about the machine quantifies over them (DESIGN CHOICE: log 2). -/
structure Config where
  /-- `MAX_GRID`: the largest grid size the instance's GRID memory holds; the memory has `MAX_GRID²` cells. -/
  maxGrid : Nat
  /-- `SIGNATURE[0]`, the byte at file offset 0 (R152). -/
  signature0 : Byte
  /-- `SIGNATURE[1]`, the byte at file offset 1 (R152). -/
  signature1 : Byte
deriving DecidableEq, Repr

/-- The defaults R11 gives: 2047 and the bytes 0x42, 0x4D. PRESUMED through the spec (GK1): the signature's value is general
knowledge in the spec too (DESIGN CHOICE: log 2). -/
def Config.default : Config := { maxGrid := 2047, signature0 := 0x42, signature1 := 0x4D }

end Sys2Proof
end

