-- ==== Sys2Proof/Syntax.lean ====
section
/-! DEFINITION. The instructions: one constructor per row of spec/opcode_table.json (R94). No row has an operand field: a
command "takes its operands from the registers and GRID" (R81), and a phase's operands are G, the registers, GRID and pc. -/

namespace Sys2Proof

/-- The eight rows of the opcode table: three commands of format CMD (R82), five phases of format PHASE (R83). -/
inductive Instr where
  /-- NOP, CMD 0x00000000 (R130). -/
  | nop
  /-- START, CMD 0x00000001 (R131, R133). -/
  | start
  /-- CLEAR, CMD 0x00000002 (R132, R133). -/
  | clear
  /-- VALIDATE, PHASE 001: the engine step `validate` (R180). -/
  | validate
  /-- FILE_HEADER, PHASE 010: a transfer at file offsets 0..13 (R151, R203). -/
  | fileHeader
  /-- INFO_HEADER, PHASE 011: a transfer at file offsets 14..25 (R156, R203). -/
  | infoHeader
  /-- PALETTE, PHASE 100: a transfer at file offsets 26..73 (R170, R203). -/
  | palette
  /-- PIXELS, PHASE 101: a transfer at file offsets 74..FS-1 (R181, R203). -/
  | pixels
deriving DecidableEq, Repr

end Sys2Proof
end

