-- ==== Sys2Proof/Machine/Input.lean ====
section
/-! DEFINITION. What the outside of the block does to it: the host's transactions (R84), the sink's readiness (R38), the
reset (R250), the engine's turn in an interleaving (R14), and one rising clock edge with its pins (R51, R68). -/

namespace Sys2Proof.Machine

/-- Format HOST (R84): the four transactions of the host. -/
inductive HostOp where
  /-- `WR offset, data`: REG write (R134). -/
  | wr (offset : RegOffset) (data : Word)
  /-- `RD offset`: REG read (R136). -/
  | rd (offset : RegOffset)
  /-- `GW addr, val`: GRID write (R139). -/
  | gw (addr : GridAddr) (val : Cell)
  /-- `GR addr`: GRID read (R140). -/
  | gr (addr : GridAddr)
deriving DecidableEq, Repr

/-- The input ports of R51 at one rising edge of `clk`. -/
structure Pins where
  rst       : Bool
  regWe     : Bool
  regRe     : Bool
  regAddr   : RegOffset
  regWdata  : Word
  gridWe    : Bool
  gridRe    : Bool
  gridAddr  : GridAddr
  gridWdata : Cell
  outReady  : Bool
deriving DecidableEq, Repr

/-- One thing the outside does. A list of these in State says which atomic step comes next (R14; DESIGN CHOICE: log 3). -/
inductive Input where
  /-- The host makes one transaction. -/
  | host (op : HostOp)
  /-- The engine takes its turn (`STEP` of R95). -/
  | engine
  /-- The level of `out_ready` becomes `ready` (R20: the sink's only action is to be ready or not). -/
  | sink (ready : Bool)
  /-- The reset step (R250). -/
  | reset
  /-- One rising edge of `clk` with these pins (R68). -/
  | edge (pins : Pins)
deriving DecidableEq, Repr

end Sys2Proof.Machine
end

