-- ==== Sys2Proof/WellFormed.lean ====
section
/-! DEFINITION. Well-formedness of what is handed to the machine: instructions, parameters, pins and inputs. -/

namespace Sys2Proof

/-- Well-formed instructions. No instruction has an operand field (R81), so nothing can be out of range; the match names every
constructor, so that a row with operands could not slip in unchecked. -/
def Instr.wf : Instr → Bool
  | .nop => true
  | .start => true
  | .clear => true
  | .validate => true
  | .fileHeader => true
  | .infoHeader => true
  | .palette => true
  | .pixels => true

/-- The range of `MAX_GRID` (R11): 1..2047. `SIGNATURE` may be any two bytes. -/
def Config.wf (c : Config) : Bool := decide (1 ≤ c.maxGrid) && decide (c.maxGrid ≤ 2047)

namespace Machine

/-- R51: at most one of `reg_we`, `reg_re` and at most one of `grid_we`, `grid_re` per cycle. -/
def Pins.wf (p : Pins) : Bool := !(p.regWe && p.regRe) && !(p.gridWe && p.gridRe)

/-- An input is well formed when its pins are; with `rst = 1` "all strobes are ignored" (R68). -/
def Input.wf : Input → Bool
  | .host _ => true
  | .engine => true
  | .sink _ => true
  | .reset => true
  | .edge p => p.rst || p.wf

end Machine

end Sys2Proof
end

