-- ==== Sys2Proof/Decode.lean ====
section
/-! DEFINITION. The decoder of the two formats the block decodes (R80): CMD (R81, R82) and PHASE (R83), total on every code
and rejecting by name, and after it the encoder written from the same tables. -/

namespace Sys2Proof

/-- A code as the block meets it: a 32-bit value written to CMD (R81) or the 3-bit PHASE value (R83). -/
inductive Code where
  | cmd (opcode : Word)
  | phase (code : BitVec 3)
deriving DecidableEq, Repr

/-- Why a code is no instruction. -/
inductive DecodeError where
  /-- CMD opcodes 0x00000003..0xFFFFFFFF (R82, R92 (a)). -/
  | reservedCommand (opcode : Word)
  /-- PHASE 000: NONE, the engine has no step (R25, R83). -/
  | noPhase
  /-- PHASE 110 and 111, never produced (R83, R92 (b)). -/
  | reservedPhase (code : BitVec 3)
deriving DecidableEq, Repr

/-- Command decode: all 32 bits are compared (R82). -/
def decodeCmd (opcode : Word) : Except DecodeError Instr :=
  if opcode = 0x00000000#32 then .ok .nop
  else if opcode = 0x00000001#32 then .ok .start
  else if opcode = 0x00000002#32 then .ok .clear
  else .error (.reservedCommand opcode)

/-- Phase decode: the sub-block that owns the next engine step (R83). -/
def decodePhase (code : BitVec 3) : Except DecodeError Instr :=
  if code = 0b001#3 then .ok .validate
  else if code = 0b010#3 then .ok .fileHeader
  else if code = 0b011#3 then .ok .infoHeader
  else if code = 0b100#3 then .ok .palette
  else if code = 0b101#3 then .ok .pixels
  else if code = 0b000#3 then .error .noPhase
  else .error (.reservedPhase code)

/-- The decoder of both formats. -/
def decode : Code → Except DecodeError Instr
  | .cmd opcode => decodeCmd opcode
  | .phase code => decodePhase code

/-- The encoder: each instruction's one code (R82, R83). -/
def encode : Instr → Code
  | .nop => .cmd 0x00000000#32
  | .start => .cmd 0x00000001#32
  | .clear => .cmd 0x00000002#32
  | .validate => .phase 0b001#3
  | .fileHeader => .phase 0b010#3
  | .infoHeader => .phase 0b011#3
  | .palette => .phase 0b100#3
  | .pixels => .phase 0b101#3

/-- The code the opcode table's numbering means: a row of at most 8 bits is a PHASE value (3 bits in one byte, the upper bits
zero), a wider one the 32-bit command word (DESIGN CHOICE: log 10). A number too large for its format is no code. -/
def codeOfTableWord (nbits w : Nat) : Option Code :=
  if nbits ≤ 8 then
    if w < 8 then some (.phase (BitVec.ofNat 3 w)) else none
  else
    if w < 4294967296 then some (.cmd (BitVec.ofNat 32 w)) else none

/-- The instruction the decoder reads from a table word; none where it refuses. -/
def decodeTableWord (nbits w : Nat) : Option Instr :=
  match codeOfTableWord nbits w with
  | some c => (decode c).toOption
  | none => none

end Sys2Proof
end

