-- ==== Sys2Proof/Machine/State.lean ====
section
/-! DEFINITION. The state of the block as plain data (R20: the registers of R33, the GRID memory of R35, the output stream
emitted so far), the reasons a step can stop, and the state after reset. -/

namespace Sys2Proof.Machine

/-- STATE (R24). -/
inductive RunState where
  | idle
  | busy
  | done
  | error
deriving DecidableEq, Repr

/-- PHASE (R25): the six values that occur; the codes 6 and 7 are never produced (R83). -/
inductive Phase where
  | none
  | validate
  | fileHeader
  | infoHeader
  | palette
  | pixels
deriving DecidableEq, Repr

/-- ERRCODE (R26, R220, R221). `encPalette` is defined and never raised (R223). -/
inductive ErrCode where
  | none
  | valGridSize
  | valColor
  | valCell
  | encGeometry
  | encPalette
  | encCapacity
deriving DecidableEq, Repr

/-- One completed handshake on OUT (R54): the byte and the end-of-file mark. -/
structure OutByte where
  data : Byte
  last : Bool
deriving DecidableEq, Repr

/-- The GRID memory (R35): the cells a `GW` has written since power-up, as pairs of cell address and value, addresses strictly
rising. A cell that is not listed has never been written (R252; DEDUCED: log 1). The unit is the spec's 2-bit cell (DESIGN
CHOICE: log 20). -/
abbrev Grid := List (Nat × Cell)

/-- The machine: the spec's state, the parameters of the instance, and the model's own fields for the outside (INVENTORY.md,
State). -/
structure State where
  /-- `MAX_GRID` and `SIGNATURE` of this instance (R11); no step changes them (DESIGN CHOICE: log 2). -/
  cfg       : Config
  /-- `x[STATE]` (R24). -/
  state     : RunState
  /-- `x[PHASE]` (R25). -/
  phase     : Phase
  /-- `x[ERRCODE]` (R26). -/
  errcode   : ErrCode
  /-- The sticky flag BADCMD (R27). -/
  badcmd    : Bool
  /-- The sticky flag BUSYWR (R27). -/
  busywr    : Bool
  /-- GRID_SIZE (R29). -/
  gridSize  : Word
  /-- COLOR0 (R30). -/
  color0    : Word
  /-- COLOR1 (R30). -/
  color1    : Word
  /-- COLOR2 (R30). -/
  color2    : Word
  /-- The stream position, readable as BYTE_COUNT (R22, R31). -/
  pc        : Word
  /-- ERRINFO (R32). -/
  errinfo   : Word
  /-- GRID (R35). -/
  grid      : Grid
  /-- The output stream emitted so far, oldest byte first: write-only history (R20; DEDUCED: log 7). -/
  out       : List OutByte
  /-- The model's own: what the outside does next, first element next (DESIGN CHOICE: log 3). -/
  inputs    : List Input
  /-- The model's own: the level of the input port `out_ready` (R51; DESIGN CHOICE: log 5). -/
  outReady  : Bool
  /-- The model's own: the answer of the last REG read, on `reg_rdata` (R51; DESIGN CHOICE: log 6). -/
  regRdata  : Word
  /-- The model's own: the answer of the last GRID read, on `grid_rdata` (R51; DESIGN CHOICE: log 6). -/
  gridRdata : Cell
deriving DecidableEq, Repr

/-- Why the machine is stuck. The block itself has no stop: its errors are states (R226). -/
inductive Fault where
  /-- Raised by the four byte-producing phases when `pc` lies outside the file offsets of the phase (R25) or of the file, or
  there is no such byte: the spec gives no byte there, and no state a run reaches is such a state. Safe (DESIGN CHOICE: log
  12). -/
  | positionOutsidePhase
deriving DecidableEq, Repr

/-- Why a step has no meaning in the model. -/
inductive Refusal where
  /-- Raised by `exec` for an instruction that has no meaning yet, by its mnemonic. Safe. -/
  | notModelled (mnemonic : String)
  /-- Raised by VALIDATE, PIXELS and GR when they read a GRID cell that no GW has written since power-up: the spec gives "a run
  that reads such a cell no meaning" (R252, U1). Safe (DEDUCED: log 1). -/
  | unwrittenCell (addr : Nat)
  /-- Raised by a clock edge whose pins make two accesses on one port: "at most one of them per cycle" (R51, U15). Safe
  (DEDUCED: log 13). -/
  | twoAccessesOnePort
deriving DecidableEq, Repr

/-- The three outcomes of a step of this machine. -/
abbrev Result := Host.Outcome State Fault Refusal

/-- The machine after power-up and reset (R39, R250): every register at the value the spec states, no GRID cell written (R252),
no byte emitted, the parameters at their defaults (R11). The model's own fields: logs 3, 5, 6, 8. -/
def State.reset : State where
  cfg       := Config.default
  state     := .idle
  phase     := .none
  errcode   := .none
  badcmd    := false
  busywr    := false
  gridSize  := 0
  color0    := 0
  color1    := 0
  color2    := 0
  pc        := 0
  errinfo   := 0
  grid      := []
  out       := []
  inputs    := []
  outReady  := true
  regRdata  := 0
  gridRdata := 0

end Sys2Proof.Machine
end

