-- ==== Sys2Proof/Machine/Flags.lean ====
section
/-! DEFINITION. STATUS: the codes of its fields (R24, R25, R26), the two sticky flags (R27), the word a read returns (R23). -/

namespace Sys2Proof.Machine

/-- The 2-bit code of STATE (R24). -/
def RunState.code : RunState → BitVec 2
  | .idle => 0
  | .busy => 1
  | .done => 2
  | .error => 3

/-- The 3-bit code of PHASE (R25). -/
def Phase.code : Phase → BitVec 3
  | .none => 0b000#3
  | .validate => 0b001#3
  | .fileHeader => 0b010#3
  | .infoHeader => 0b011#3
  | .palette => 0b100#3
  | .pixels => 0b101#3

/-- The 4-bit ERRCODE (R26, R221). -/
def ErrCode.code : ErrCode → BitVec 4
  | .none => 0
  | .valGridSize => 1
  | .valColor => 2
  | .valCell => 3
  | .encGeometry => 4
  | .encPalette => 5
  | .encCapacity => 6

/-- `x[BADCMD] <- 1` and nothing else (R27, R133). -/
def setBadcmd (s : State) : State := { s with badcmd := true }

/-- `x[BUSYWR] <- 1` and nothing else (R27, R135, R139). -/
def setBusywr (s : State) : State := { s with busywr := true }

/-- Both sticky flags cleared: only an executed CLEAR and reset do it (R27). -/
def clearFlags (s : State) : State := { s with badcmd := false, busywr := false }

/-- STATUS as a read returns it (R23): STATE 1:0, PHASE 4:2, ERRCODE 11:8, BADCMD 12, BUSYWR 13, the rest 0. -/
def statusWord (s : State) : Word :=
  s.state.code.setWidth 32
    ||| s.phase.code.setWidth 32 <<< 2
    ||| s.errcode.code.setWidth 32 <<< 8
    ||| (BitVec.ofBool s.badcmd).setWidth 32 <<< 12
    ||| (BitVec.ofBool s.busywr).setWidth 32 <<< 13

end Sys2Proof.Machine
end

