-- ==== Sys2Proof/Machine/Operands.lean ====
section
/-! DEFINITION. The implicit operands of the commands and phases: the size arithmetic (R10, R150), the register checks of START
(R131), the palette (R34, R170), the phase of a stream position (R25). All numbers are naturals and exact (R150). -/

namespace Sys2Proof.Machine

/-- `G = x[GRID_SIZE]`, a 32-bit unsigned number (R29, R131). -/
def gridG (s : State) : Nat := s.gridSize.toNat

/-- `S = 32 * G` (R150). -/
def imageSide (G : Nat) : Nat := 32 * G

/-- `RB = 16 * G` (R150). -/
def rowBytes (G : Nat) : Nat := 16 * G

/-- `PD = 512 * G * G` (R150). -/
def pixelDataSize (G : Nat) : Nat := 512 * G * G

/-- `FS = 74 + PD` (R150). -/
def fileSize (G : Nat) : Nat := 74 + pixelDataSize G

/-- `x[COLORk][31:24] != 0` (R30, R131 check 2): the colour is outside the 24-bit range. -/
def colourOutOfRange (c : Word) : Bool := c.extractLsb' 24 8 != 0

/-- The lowest `k` in 0, 1, 2 with `x[COLORk][31:24] != 0`, if any (R32, R131 check 2). -/
def firstBadColour (s : State) : Option Word :=
  if colourOutOfRange s.color0 then some 0
  else if colourOutOfRange s.color1 then some 1
  else if colourOutOfRange s.color2 then some 2
  else none

/-- What START accepts of GRID_SIZE (R131 checks 1, 3 and 4): positive, side within 16 bits, within the capacity. -/
def acceptedSize (c : Config) (G : Nat) : Bool :=
  decide (G ≠ 0) && decide (32 * G ≤ maxSide) && decide (G ≤ c.maxGrid)

/-- `PAL[k]` (R34, R170): slots 0..2 are the colour registers' low 24 bits, slots 3..15 are 0. -/
def paletteSlot (s : State) (k : Nat) : Colour :=
  if k = 0 then s.color0.extractLsb' 0 24
  else if k = 1 then s.color1.extractLsb' 0 24
  else if k = 2 then s.color2.extractLsb' 0 24
  else 0

/-- `PhaseOf(pc)` (R25, R55, R204): the phase that owns the byte at a file offset. -/
def phaseOf (n : Nat) : Phase :=
  if n < 14 then .fileHeader
  else if n < 26 then .infoHeader
  else if n < 74 then .palette
  else .pixels

end Sys2Proof.Machine
end

