-- ==== Sys2Proof/Machine/Ops.lean ====
section
/-! DEFINITION. The named operations every meaning is built from: GRID cells (R52, R53), little-endian byte sequences (R88),
error entry (R226) and the return from the ERROR state (R228, R132), the reset (R250), one transfer (R203). -/

namespace Sys2Proof.Machine

/-- The value of a cell that some `GW` has written; none for a cell never written (R252; DEDUCED: log 1). -/
def Grid.read : Grid → Nat → Option Cell
  | [], _ => none
  | (b, v) :: rest, a => if b = a then some v else Grid.read rest a

/-- `MemWrite(a, 1, v)` (R53), keeping the addresses strictly rising. -/
def Grid.write : Grid → Nat → Cell → Grid
  | [], a, v => [(a, v)]
  | (b, w) :: rest, a, v =>
    if a < b then (a, v) :: (b, w) :: rest
    else if a = b then (a, v) :: rest
    else (b, w) :: Grid.write rest a v

/-- Every address of the list is above `lo`, and the addresses rise strictly. -/
def Grid.risingFrom : Option Nat → Grid → Bool
  | _, [] => true
  | none, (b, _) :: rest => Grid.risingFrom (some b) rest
  | some lo, (b, _) :: rest => decide (lo < b) && Grid.risingFrom (some b) rest

/-- The canonical form of the GRID memory: addresses strictly rising, one entry for each written cell. -/
def Grid.wf (g : Grid) : Bool := Grid.risingFrom none g

/-- The number of cells of this instance's GRID memory, `MAX_GRID²` (R11, R35). -/
def cellCount (c : Config) : Nat := c.maxGrid * c.maxGrid

/-- Byte `i` of a number: `(v >> 8*i) & 0xFF` (R13). -/
def byteOf (v i : Nat) : Byte := BitVec.ofNat 8 (v >>> (8 * i))

/-- `LE16(v)` (R88). -/
def le16 (v : Nat) : List Byte := [byteOf v 0, byteOf v 1]

/-- `LE32(v)` (R88). -/
def le32 (v : Nat) : List Byte := [byteOf v 0, byteOf v 1, byteOf v 2, byteOf v 3]

/-- Error entry, `raise Error(code, info)` (R226): STATE, PHASE, ERRCODE, ERRINFO and nothing else. -/
def raiseError (code : ErrCode) (info : Word) (s : State) : State :=
  { s with state := .error, phase := .none, errcode := code, errinfo := info }

/-- The part of START and CLEAR that forgets the previous run or error (R131 first line, R132, R228). -/
def forgetRun (s : State) : State :=
  { s with pc := 0, errcode := .none, errinfo := 0, phase := .none }

/-- The return to IDLE, what an executed CLEAR does (R132, R228). -/
def returnToIdle (s : State) : State :=
  clearFlags { forgetRun s with state := .idle }

/-- The reset step (R250): every register to its reset value; GRID is unchanged, and so are the stream the sink has taken
(R253) and the outside. -/
def resetStep (s : State) : State :=
  { s with
    state := .idle, phase := .none, errcode := .none, badcmd := false, busywr := false,
    gridSize := 0, color0 := 0, color1 := 0, color2 := 0, pc := 0, errinfo := 0 }

/-- `Emit(b, last)` (R54): one completed handshake appends one byte to the stream. -/
def emit (b : Byte) (last : Bool) (s : State) : State :=
  { s with out := s.out ++ [{ data := b, last := last }] }

/-- The position step of `transfer` (R203): `pc <- n + 1`, then DONE after the last byte, else the phase of the next one. -/
def advance (s : State) : State :=
  if s.pc.toNat = fileSize (gridG s) - 1 then
    { s with pc := s.pc + 1, state := .done, phase := .none }
  else
    { s with pc := s.pc + 1, phase := phaseOf (s.pc.toNat + 1) }

/-- The byte offered at `pc` handed over (R203). -/
def transferByte (b : Byte) (s : State) : State :=
  advance (emit b (decide (s.pc.toNat = fileSize (gridG s) - 1)) s)

/-- One turn of a byte-producing phase (R203). It has a step only while BUSY in that phase with the sink ready; otherwise
nothing changes (DESIGN CHOICE: log 4). `byte` is the phase's byte at `pc`, or the reason there is none. -/
def transferIn (p : Phase) (byte : Except Result Byte) (s : State) : Result :=
  if s.state = .busy ∧ s.phase = p ∧ s.outReady = true then
    match byte with
    | .ok b => .next (transferByte b s)
    | .error r => r
  else .next s

/-- The byte a phase's table gives at an index, or the stuck state when the index is outside the table (DESIGN CHOICE: log
12). -/
def tableByte (o : Option Byte) : Except Result Byte :=
  match o with
  | some b => .ok b
  | none => .error (.fault .positionOutsidePhase)

/-- One result after another: the second runs on the state the first leaves, if it leaves one. -/
def andThen (r : Result) (f : State → Result) : Result :=
  match r with
  | .next s => f s
  | .fault e => .fault e
  | .refused e => .refused e

end Sys2Proof.Machine
end

