-- ==== Sys2Proof/Machine/Commands.lean ====
section
/-! DEFINITION. The commands of format CMD: NOP (R130), START (R131), CLEAR (R132), and the commands that are not executed
(R133). -/

namespace Sys2Proof.Machine

/-- A write to CMD that is not executed (R133): nothing changes except BADCMD. -/
def commandNotExecuted (s : State) : Result := .next (setBadcmd s)

/-- NOP (R130): nothing, in every state. -/
def execNop (s : State) : Result := .next s

/-- The checks of START in their order (R131, R225): the first that fires gives the error code and its ERRINFO. The product
`32*G` is formed without wrap-around. -/
def startCheck (s : State) : Option (ErrCode × Word) :=
  if gridG s = 0 then some (.valGridSize, s.gridSize)
  else
    match firstBadColour s with
    | some k => some (.valColor, k)
    | none =>
      if 32 * gridG s > maxSide then some (.encGeometry, s.gridSize)
      else if gridG s > s.cfg.maxGrid then some (.encCapacity, s.gridSize)
      else none

/-- START (R131): executed unless BUSY (R133); forgets the previous run, then an error or BUSY in phase VALIDATE. -/
def execStart (s : State) : Result :=
  if s.state = .busy then commandNotExecuted s
  else
    match startCheck s with
    | some (code, info) => .next (raiseError code info (forgetRun s))
    | none => .next { forgetRun s with state := .busy, phase := .validate }

/-- CLEAR (R132): executed unless BUSY (R133). -/
def execClear (s : State) : Result :=
  if s.state = .busy then commandNotExecuted s else .next (returnToIdle s)

end Sys2Proof.Machine
end

