-- ==== Sys2Proof/Machine/HeaderBuilder.lean ====
section
/-! DEFINITION. bmp_header_builder: the phases FILE_HEADER and INFO_HEADER (R150 to R162). -/

namespace Sys2Proof.Machine

/-- `FH = SIGNATURE[0], SIGNATURE[1], LE32(FS), LE32(0), LE32(74)` (R85, R151 to R155): 14 bytes. -/
def fileHeaderBytes (c : Config) (G : Nat) : List Byte :=
  [c.signature0, c.signature1] ++ le32 (fileSize G) ++ le32 0 ++ le32 pixelOffset

/-- `IH = LE32(12), LE16(S), LE16(S), LE16(1), LE16(4)` (R86, R156 to R160): 12 bytes. -/
def infoHeaderBytes (G : Nat) : List Byte :=
  le32 infoHeaderSize ++ le16 (imageSide G) ++ le16 (imageSide G) ++ le16 colourPlanes ++ le16 bitsPerPixel

/-- The byte of phase FILE_HEADER at `n = pc`, `0 <= n < 14`: `FH[n]` (R151). -/
def fileHeaderByte (s : State) (n : Nat) : Except Result Byte :=
  tableByte ((fileHeaderBytes s.cfg (gridG s))[n]?)

/-- The byte of phase INFO_HEADER at `n = pc`, `14 <= n < 26`: `IH[n - 14]` (R156). -/
def infoHeaderByte (s : State) (n : Nat) : Except Result Byte :=
  if n < 14 then tableByte none else tableByte ((infoHeaderBytes (gridG s))[n - 14]?)

/-- FILE_HEADER (R151, R203). -/
def execFileHeader (s : State) : Result :=
  transferIn .fileHeader (fileHeaderByte s s.pc.toNat) s

/-- INFO_HEADER (R156, R203). -/
def execInfoHeader (s : State) : Result :=
  transferIn .infoHeader (infoHeaderByte s s.pc.toNat) s

/-- The closed form `HdrByte(G, n)` for `0 <= n < 26` (R162). -/
def hdrByte (c : Config) (G n : Nat) : Byte :=
  if n = 0 then c.signature0
  else if n = 1 then c.signature1
  else if n < 6 then BitVec.ofNat 8 ((fileSize G >>> (8 * (n - 2))) &&& 0xFF)
  else if n < 10 then 0x00
  else if n = 10 then 0x4A
  else if n < 14 then 0x00
  else if n = 14 then 0x0C
  else if n < 18 then 0x00
  else if n < 20 then BitVec.ofNat 8 ((imageSide G >>> (8 * (n - 18))) &&& 0xFF)
  else if n < 22 then BitVec.ofNat 8 ((imageSide G >>> (8 * (n - 20))) &&& 0xFF)
  else if n = 22 then 0x01
  else if n = 23 then 0x00
  else if n = 24 then 0x04
  else 0x00

end Sys2Proof.Machine
end

