-- ==== Sys2Proof/Machine/PaletteFormatter.lean ====
section
/-! DEFINITION. palette_formatter: the phase PALETTE (R170 to R173). -/

namespace Sys2Proof.Machine

/-- Format PE (R87, R90): the three bytes of one palette entry, blue, green, red. -/
def paletteEntryBytes (c : Colour) : List Byte :=
  [c.extractLsb' 0 8, c.extractLsb' 8 8, c.extractLsb' 16 8]

/-- The 48 palette bytes: 16 entries in palette-index order (R170, R171, R172). -/
def paletteBytes (s : State) : List Byte :=
  (List.range paletteEntries).flatMap fun k => paletteEntryBytes (paletteSlot s k)

/-- The byte of phase PALETTE at `n = pc`, `26 <= n < 74` (R170). -/
def paletteByte (s : State) (n : Nat) : Except Result Byte :=
  if n < 26 then tableByte none else tableByte ((paletteBytes s)[n - 26]?)

/-- PALETTE (R170, R203). -/
def execPalette (s : State) : Result :=
  transferIn .palette (paletteByte s s.pc.toNat) s

/-- The closed form `PalByte(n)` for `26 <= n < 74` (R173): slot `(n-26) div 3`, component `(n-26) mod 3`. -/
def palByte (s : State) (n : Nat) : Byte :=
  ((paletteSlot s ((n - 26) / 3)) >>> (8 * ((n - 26) % 3))).setWidth 8

end Sys2Proof.Machine
end

