-- ==== Sys2Proof/Machine/Rasterizer.lean ====
section
/-! DEFINITION. pixel_rasterizer_with_border: the phase VALIDATE (R180) and, for the phase PIXELS, everything up to the two
palette indices of a pixel pair (R181 to R188). The frame is decided per pixel and the horizontal orientation is the spec's
(C1, D20, D27; UNVERIFIED: log 16). -/

namespace Sys2Proof.Machine

/-- The lowest address below `limit` whose cell satisfies `p`, if any; `p` sees none for a cell never written. -/
def firstCell (p : Option Cell → Bool) (g : Grid) (limit : Nat) : Option Nat :=
  (List.range limit).find? fun a => p (g.read a)

/-- VALIDATE, the engine step `validate` (R180): enabled while BUSY in phase 1, whatever the sink does; else nothing changes
(DESIGN CHOICE: log 4). A scan that meets a never-written cell has no meaning (R252, U1; logs 1, 11). -/
def execValidate (s : State) : Result :=
  if s.state = .busy ∧ s.phase = .validate then
    match firstCell (fun v => v == none) s.grid (gridG s * gridG s) with
    | some a => .refused (.unwrittenCell a)
    | none =>
      match firstCell (fun v => v == some 3) s.grid (gridG s * gridG s) with
      | some a => .next (raiseError .valCell (BitVec.ofNat 32 a) s)
      | none => .next { s with phase := .fileHeader }
  else .next s

/-- DOC0's scan indices of a pixel byte (R182). -/
structure ScanIndex where
  vi : Nat
  vj : Nat
  hi : Nat
  hj : Nat
deriving DecidableEq, Repr

/-- Index decomposition (R182, R187) of `p = n - 74`: stored row `y = p div RB`, byte in the row `xb = p mod RB`, then band,
row in the band, cell column and half-column. -/
def scanIndex (G p : Nat) : ScanIndex where
  vi := p / rowBytes G / 32
  vj := p / rowBytes G % 32
  hi := p % rowBytes G / 16
  hj := p % rowBytes G % 16

/-- Cell fetch with vertical mirroring (R183, R184): `a = (G - 1 - v_i) * G + h_i`. -/
def cellAddr (G : Nat) (i : ScanIndex) : Nat := (G - 1 - i.vi) * G + i.hi

/-- The frame test per pixel (R185): local row or column in the outer 1-pixel band of the 32 x 32 block. -/
def isFrame (ly lx : Nat) : Bool :=
  decide (ly < frameWidth) || decide (ly ≥ cellSize - frameWidth)
    || decide (lx < frameWidth) || decide (lx ≥ cellSize - frameWidth)

/-- The left pixel's palette index (R186): column `2*h_j` inside the cell. -/
def leftIndex (i : ScanIndex) (v : Cell) : Nibble :=
  if isFrame i.vj (2 * i.hj) then 0 else v.setWidth 4

/-- The right pixel's palette index (R186): column `2*h_j + 1` inside the cell. -/
def rightIndex (i : ScanIndex) (v : Cell) : Nibble :=
  if isFrame i.vj (2 * i.hj + 1) then 0 else v.setWidth 4

/-- The image-level statement `Pix(X, Y)` (R188): the palette index of the pixel in column `X` from the left and row `Y` from
the top; none when it shows a cell never written. -/
def pix (g : Grid) (G X Y : Nat) : Option Nibble :=
  if X % 32 = 0 ∨ X % 32 = 31 ∨ Y % 32 = 0 ∨ Y % 32 = 31 then some 0
  else (g.read (Y / 32 * G + X / 32)).map fun v => v.setWidth 4

end Sys2Proof.Machine
end

