-- ==== Sys2Proof/Machine/NibblePacker.lean ====
section
/-! DEFINITION. The nibble packer and the stream: packing (R200), the phase PIXELS (R181, R203), the one function that gives the
byte at every file offset (R202), and what the OUT port offers (R37, R54). -/

namespace Sys2Proof.Machine

/-- Nibble packing (R89, R200, R201): `(left << 4) | right`. -/
def packNibbles (left right : Nibble) : Byte :=
  left.setWidth 8 <<< 4 ||| right.setWidth 8

/-- The pixel byte of a cell value at a scan index (R185, R186, R200). -/
def pixelByteAt (i : ScanIndex) (v : Cell) : Byte :=
  packNibbles (leftIndex i v) (rightIndex i v)

/-- The four forms of a pixel byte (R91), a table of its own beside the per-pixel frame test: frame row, left edge, interior
("value OR value<<4"), right edge. -/
def pixelByteForm (vj hj : Nat) (v : Cell) : Byte :=
  if vj = 0 ∨ vj = 31 then 0x00
  else if hj = 0 then v.setWidth 8
  else if hj = 15 then v.setWidth 8 <<< 4
  else v.setWidth 8 ||| v.setWidth 8 <<< 4

/-- The byte of phase PIXELS at `n = pc`, `74 <= n < FS` (R181): indices (R182), cell fetch (R183), frame and indices (R185,
R186), packing (R200). A cell that holds 3, which VALIDATE excludes, is packed by the same formula (DEDUCED: log 23). -/
def pixelByte (s : State) (n : Nat) : Except Result Byte :=
  if n < 74 ∨ fileSize (gridG s) ≤ n then tableByte none
  else
    let i := scanIndex (gridG s) (n - 74)
    let a := cellAddr (gridG s) i
    match s.grid.read a with
    | some v => .ok (pixelByteAt i v)
    | none => .error (.refused (.unwrittenCell a))

/-- PIXELS (R181, R203). -/
def execPixels (s : State) : Result :=
  transferIn .pixels (pixelByte s s.pc.toNat) s

/-- `PixByte(n)` for `74 <= n < FS` (R202); none when the byte shows a cell never written. -/
def pixByte (s : State) (n : Nat) : Option Byte :=
  let i := scanIndex (gridG s) (n - 74)
  (s.grid.read (cellAddr (gridG s) i)).map (pixelByteAt i)

/-- `EncByte(n)` (R202): the byte at every file offset `0 <= n < FS`; none outside the file. -/
def encByte (s : State) (n : Nat) : Option Byte :=
  if n < 26 then some (hdrByte s.cfg (gridG s) n)
  else if n < 74 then some (palByte s n)
  else if n < fileSize (gridG s) then pixByte s n
  else none

/-- The byte at a file offset with its end mark: `last` exactly at `FS - 1` (R54, R203). -/
def streamByte (s : State) (n : Nat) : Option OutByte :=
  (encByte s n).map fun b => { data := b, last := decide (n = fileSize (gridG s) - 1) }

/-- `out_valid` (R37): a byte is offered while BUSY with PHASE >= 2. -/
def outValid (s : State) : Bool :=
  decide (s.state = .busy) && decide (s.phase ≠ .none) && decide (s.phase ≠ .validate)

/-- What the OUT port offers: `EncByte(pc)` with its mark while `out_valid`, no value otherwise (R37, R54; DEDUCED: log 21). -/
def offered (s : State) : Option OutByte :=
  if outValid s then streamByte s s.pc.toNat else none

/-- The output `done` (R37, R230). -/
def doneWire (s : State) : Bool := decide (s.state = .done)

/-- The output `error` (R37, R230). -/
def errorWire (s : State) : Bool := decide (s.state = .error)

/-- DOC0's `encode`, `[EncByte(0), ..., EncByte(FS - 1)]` (R202); none when a byte shows a cell never written. -/
def encodeFile (s : State) : Option (List Byte) :=
  (List.range (fileSize (gridG s))).mapM (encByte s)

end Sys2Proof.Machine
end

