-- ==== Sys2Proof/Machine/Dispatch.lean ====
section
/-! DEFINITION. One arm per row of the opcode table. -/

namespace Sys2Proof.Machine

def exec (i : Instr) (s : State) : Host.Outcome State Fault Refusal :=
  match i with
  | .nop => Sys2Proof.Machine.execNop s
  | .start => Sys2Proof.Machine.execStart s
  | .clear => Sys2Proof.Machine.execClear s
  | .validate => Sys2Proof.Machine.execValidate s
  | .fileHeader => Sys2Proof.Machine.execFileHeader s
  | .infoHeader => Sys2Proof.Machine.execInfoHeader s
  | .palette => Sys2Proof.Machine.execPalette s
  | .pixels => Sys2Proof.Machine.execPixels s

end Sys2Proof.Machine
end

