-- ==== Sys2Proof/Machine/HostAccess.lean ====
section
/-! DEFINITION. The host's transactions WR, RD, GW, GR (R134 to R140). They are no rows of the opcode table (R94): they are the
bus operations themselves, inputs of the machine (DEDUCED: log 22). Each is one atomic step, enabled in every state. -/

namespace Sys2Proof.Machine

/-- A write to CMD (R28, R82): the command it decodes to, or a command that is not executed (R133 (a)). -/
def writeCmd (data : Word) (s : State) : Result :=
  match decodeCmd data with
  | .ok i => exec i s
  | .error _ => commandNotExecuted s

/-- A write to GRID_SIZE or a colour register (R135): dropped while BUSY, with BUSYWR; else the write is made, unchecked. -/
def writeConfig (store : State → State) (s : State) : Result :=
  if s.state = .busy then .next (setBusywr s) else .next (store s)

/-- `WR offset, data` (R134): CMD; the four configuration registers; everything else (read-only R137, unmapped or misaligned
R138) is ignored. -/
def hostWr (offset : RegOffset) (data : Word) (s : State) : Result :=
  if offset = 0x000#12 then writeCmd data s
  else if offset = 0x008#12 then writeConfig (fun t => { t with gridSize := data }) s
  else if offset = 0x00C#12 then writeConfig (fun t => { t with color0 := data }) s
  else if offset = 0x010#12 then writeConfig (fun t => { t with color1 := data }) s
  else if offset = 0x014#12 then writeConfig (fun t => { t with color2 := data }) s
  else .next s

/-- What `RD offset` returns (R136, R138). -/
def regValue (s : State) (offset : RegOffset) : Word :=
  if offset = 0x000#12 then 0
  else if offset = 0x004#12 then statusWord s
  else if offset = 0x008#12 then s.gridSize
  else if offset = 0x00C#12 then s.color0
  else if offset = 0x010#12 then s.color1
  else if offset = 0x014#12 then s.color2
  else if offset = 0x018#12 then s.pc
  else if offset = 0x01C#12 then s.errinfo
  else 0

/-- `RD` (R136): the answer appears on `reg_rdata`; no side effect (R59; DESIGN CHOICE: log 6). `before` is the state the
answer is read from: the state itself for the atomic step, the state before the edge for a clock edge (R68). -/
def hostRd (before : State) (offset : RegOffset) (s : State) : Result :=
  .next { s with regRdata := regValue before offset }

/-- `GW addr, val` (R139): dropped while BUSY, with BUSYWR; ignored when there is no such cell. -/
def hostGw (addr : GridAddr) (val : Cell) (s : State) : Result :=
  if s.state = .busy then .next (setBusywr s)
  else if addr.toNat < cellCount s.cfg then .next { s with grid := s.grid.write addr.toNat val }
  else .next s

/-- `GR addr` (R140): the cell, or 0 when there is no such cell; a cell never written has no meaning (R252, U1; DEDUCED: log
1). `before` as for `hostRd`. -/
def hostGr (before : State) (addr : GridAddr) (s : State) : Result :=
  if addr.toNat < cellCount before.cfg then
    match before.grid.read addr.toNat with
    | some v => .next { s with gridRdata := v }
    | none => .refused (.unwrittenCell addr.toNat)
  else .next { s with gridRdata := 0 }

/-- One transaction of the host as an atomic step (R14, R58). -/
def hostStep (op : HostOp) (s : State) : Result :=
  match op with
  | .wr offset data => hostWr offset data s
  | .rd offset => hostRd s offset s
  | .gw addr val => hostGw addr val s
  | .gr addr => hostGr s addr s

end Sys2Proof.Machine
end

