-- ==== Sys2Proof/Machine/Engine.lean ====
section
/-! DEFINITION. The engine's turn (R20, R83), one rising clock edge (R51, R68), the step an input makes, and where the next
instruction stands. -/

namespace Sys2Proof.Machine

/-- The engine's turn: while BUSY, the instruction its PHASE code decodes to (R83); otherwise the engine has no step (R20, R226)
and nothing changes (DESIGN CHOICE: log 4). -/
def engineTurn (s : State) : Result :=
  if s.state = .busy then
    match decodePhase s.phase.code with
    | .ok i => exec i s
    | .error _ => .next s
  else .next s

/-- The GRID access of a cycle, if any (R68). -/
def edgeGrid (p : Pins) (before s : State) : Result :=
  if p.gridWe then hostGw p.gridAddr p.gridWdata s
  else if p.gridRe then hostGr before p.gridAddr s
  else .next s

/-- The REG access of a cycle, if any (R68). -/
def edgeReg (p : Pins) (before s : State) : Result :=
  if p.regWe then hostWr p.regAddr p.regWdata s
  else if p.regRe then hostRd before p.regAddr s
  else .next s

/-- The engine step of a cycle: "if the state before the edge had STATE = BUSY and that step was enabled" (R68; DEDUCED: log
14). -/
def edgeEngine (before s : State) : Result :=
  if before.state = .busy then engineTurn s else .next s

/-- One rising edge of `clk` (R68): with `rst = 1` the reset step, all strobes ignored; else the GRID access, the REG access
and the engine step, in that order. Two accesses on one port have no meaning (R51, U15; DEDUCED: log 13). The level of
`out_ready` is the pin's (logs 5, 15). -/
def clockEdge (p : Pins) (s : State) : Result :=
  let before : State := { s with outReady := p.outReady }
  if p.rst then .next (resetStep before)
  else if p.wf then
    andThen (edgeGrid p before before) fun s1 =>
      andThen (edgeReg p before s1) fun s2 => edgeEngine before s2
  else .refused .twoAccessesOnePort

/-- The step an input makes (R14). -/
def inputStep (i : Input) (s : State) : Result :=
  match i with
  | .host op => hostStep op s
  | .engine => engineTurn s
  | .sink ready => .next { s with outReady := ready }
  | .reset => .next (resetStep s)
  | .edge p => clockEdge p s

/-- The phase a 3-bit code names; the codes 6 and 7 name none and leave the engine without a step (R83). -/
def phaseOfCode (code : BitVec 3) : Phase :=
  if code = 0b001#3 then .validate
  else if code = 0b010#3 then .fileHeader
  else if code = 0b011#3 then .infoHeader
  else if code = 0b100#3 then .palette
  else if code = 0b101#3 then .pixels
  else .none

/-- The first file offset of a phase (R25). -/
def firstOffset : Phase → Word
  | .none => 0
  | .validate => 0
  | .fileHeader => 0
  | .infoHeader => 14
  | .palette => 26
  | .pixels => 74

/-- Every cell of addresses below `limit` that was never written gets 0; written cells keep their value (DESIGN CHOICE: log
9). -/
def fillUnwritten (limit : Nat) (g : Grid) : Grid :=
  (List.range limit).foldl (fun h a => if h.read a = none then h.write a 0 else h) g

/-- A command word as the next thing the machine meets: the host's write to CMD (R82). -/
def withCommand (opcode : Word) (s : State) : State :=
  { s with inputs := .host (.wr 0x000#12 opcode) :: s.inputs }

/-- A phase as the next thing the machine runs: a run in progress at the first offset of that phase, with an accepted size and a
loaded grid (kept where they are so already), a ready sink and the engine's turn next (DESIGN CHOICE: log 9). -/
def withPhase (p : Phase) (s : State) : State :=
  let size : Word := if acceptedSize s.cfg (gridG s) then s.gridSize else 1
  { s with
    state := .busy, phase := p, errcode := .none, errinfo := 0, pc := firstOffset p, gridSize := size,
    grid := fillUnwritten (size.toNat * size.toNat) s.grid, outReady := true, inputs := .engine :: s.inputs }

end Sys2Proof.Machine
end

