-- ==== Sys2Proof/Machine/Step.lean ====
section
/-! DEFINITION. One step of the machine (R14): the first input of the list if there is one, else the engine's turn (DESIGN
CHOICE: log 3). -/

namespace Sys2Proof.Machine

/-- One atomic step. The input at the head of the list is taken; with no input left the engine goes on (R263). -/
def step (s : State) : Host.Outcome State Fault Refusal :=
  match s.inputs with
  | [] => engineTurn s
  | i :: rest => inputStep i { s with inputs := rest }

/-- `s` with a table word where `step` meets its next instruction: a command as the host's next write to CMD, a phase as the
engine's next step (DESIGN CHOICE: log 9). A number that is no code leaves `s` as it is. -/
def State.withFetchWord (s : State) (nbits w : Nat) : State :=
  match codeOfTableWord nbits w with
  | some (.cmd opcode) => withCommand opcode s
  | some (.phase code) => withPhase (phaseOfCode code) s
  | none => s

end Sys2Proof.Machine
end

