-- ==== Sys2Proof/Machine/GridModel.lean ====
section
/-! DEFINITION. The host's contract (R5, R110 to R121): GridModel with construct, mask and the loading sequence, and the
pseudo-instructions of the host notation (R95). It is host software beside the machine: no step calls it (DESIGN CHOICE: log
17). -/

namespace Sys2Proof.Machine

/-- What the host is given before validation (R112): three colour codes, a size and two matrices, of any integers. -/
structure RawModel where
  colors    : List Int
  gridSize  : Int
  parameter : List (List Int)
  pattern   : List (List Int)
deriving DecidableEq, Repr

/-- What a GridModel holds (R110). Matrices are lists of rows, indexed `[i][j]`, row 0 the logical top. -/
structure GridModel where
  color0    : Nat
  color1    : Nat
  color2    : Nat
  gridSize  : Nat
  parameter : List (List Nat)
  pattern   : List (List Nat)
deriving DecidableEq, Repr

/-- The five validation failures of construct, in the order of R112, and a colour list that is not three codes (the interface
has exactly three, C3; DESIGN CHOICE: log 24). -/
inductive ValidationError where
  | gridSizeNotPositive
  | matrixShape
  | parameterDomain
  | patternDomain
  | colorRange
  | notThreeColors
deriving DecidableEq, Repr

/-- `gridSize` rows of `gridSize` cells (R112 V2). -/
def squareShape {α : Type} (n : Nat) (m : List (List α)) : Bool :=
  decide (m.length = n) && m.all fun row => decide (row.length = n)

/-- Every cell between 0 and `top` (R112 V3 and V4). -/
def cellsUpTo (top : Int) (m : List (List Int)) : Bool :=
  m.all fun row => row.all fun v => decide (0 ≤ v) && decide (v ≤ top)

/-- A colour code in [0, 0xFFFFFF] (R112 V5). -/
def colourInRange (c : Int) : Bool := decide (0 ≤ c) && decide (c ≤ 0xFFFFFF)

/-- Integers already known not to be negative, as naturals. -/
def toNats (m : List (List Int)) : List (List Nat) := m.map fun row => row.map Int.toNat

/-- `construct(colors, gridSize, parameter, pattern)` (R112): the first failing condition of the list, else the model. -/
def construct (r : RawModel) : Except ValidationError GridModel :=
  if r.gridSize ≤ 0 then .error .gridSizeNotPositive
  else if !squareShape r.gridSize.toNat r.parameter then .error .matrixShape
  else if !squareShape r.gridSize.toNat r.pattern then .error .matrixShape
  else if !cellsUpTo 1 r.parameter then .error .parameterDomain
  else if !cellsUpTo 2 r.pattern then .error .patternDomain
  else
    match r.colors with
    | [c0, c1, c2] =>
      if colourInRange c0 && colourInRange c1 && colourInRange c2 then
        .ok { color0 := c0.toNat, color1 := c1.toNat, color2 := c2.toNat, gridSize := r.gridSize.toNat,
              parameter := toNats r.parameter, pattern := toNats r.pattern }
      else .error .colorRange
    | _ => .error .notThreeColors

/-- The cells of a matrix as R110 allows them: `gridSize` square, values up to `top`. -/
def matrixValid (n top : Nat) (m : List (List Nat)) : Bool :=
  squareShape n m && m.all fun row => row.all fun v => decide (v ≤ top)

/-- A model as construct returns it (R110, R112). -/
def GridModel.valid (m : GridModel) : Bool :=
  decide (0 < m.gridSize) && matrixValid m.gridSize 1 m.parameter && matrixValid m.gridSize 2 m.pattern
    && decide (m.color0 ≤ 0xFFFFFF) && decide (m.color1 ≤ 0xFFFFFF) && decide (m.color2 ≤ 0xFFFFFF)

/-- The elementwise product `pattern[i][j] * parameter[i][j]` (R113). -/
def maskedPattern (m : GridModel) : List (List Nat) :=
  List.zipWith (List.zipWith fun v q => v * q) m.pattern m.parameter

/-- `mask()` (R113). Outside the domain {0,1} of `parameter` it has no meaning (R116, U3; DEDUCED: log 18). -/
def mask (m : GridModel) : Option GridModel :=
  if m.parameter.all fun row => row.all fun q => decide (q ≤ 1) then some { m with pattern := maskedPattern m }
  else none

/-- `COLORS c0, c1, c2` (R95). -/
def colorsOps (c0 c1 c2 : Word) : List HostOp :=
  [.wr 0x00C#12 c0, .wr 0x010#12 c1, .wr 0x014#12 c2]

/-- The cells of a matrix with their row-major addresses `i*G + j` (R35, R118). -/
def addressedCells (m : List (List Nat)) : List (Nat × Nat) :=
  let cells := m.flatten
  (List.range cells.length).zip cells

/-- `LOADGRID G, M` (R95): GRID_SIZE, then every cell in row-major order (DESIGN CHOICE: log 19). R118 requires
`gridSize <= MAX_GRID`; outside that premise the spec gives no sequence, and the model's gives one all the same, with each
address cut to the 22 bits of the port (DESIGN CHOICE: log 26). `encodeProgram` refuses such a model. -/
def loadGridOps (G : Word) (m : List (List Nat)) : List HostOp :=
  .wr 0x008#12 G :: (addressedCells m).map fun c => .gw (BitVec.ofNat 22 c.1) (BitVec.ofNat 2 c.2)

/-- Loading a model's pattern into the block (R118), as it is: that the model was constructed, masked and fits is
`encodeProgram`'s to see to (R117). `parameter` is never sent. -/
def loadOps (m : GridModel) : List HostOp :=
  colorsOps (BitVec.ofNat 32 m.color0) (BitVec.ofNat 32 m.color1) (BitVec.ofNat 32 m.color2)
    ++ loadGridOps (BitVec.ofNat 32 m.gridSize) m.pattern

/-- The pseudo-instructions NOP, START, CLEAR of the host notation (R95). -/
def nopOp : HostOp := .wr 0x000#12 0x00000000#32
def startOp : HostOp := .wr 0x000#12 0x00000001#32
def clearOp : HostOp := .wr 0x000#12 0x00000002#32

/-- Load, then START (R118), for whatever pattern the model holds: the block "encodes what it is given" (U4). The engine drains
the run once the inputs are used up, the sink being ready (`RUN` of R95; DESIGN CHOICE: log 3). -/
def loadAndStart (m : GridModel) : List Input :=
  (loadOps m ++ [startOp]).map Input.host

/-- Why the host starts no run for what it is given. -/
inductive HostRefusal where
  /-- construct fails (R112): nothing is written to the block (R235). -/
  | invalid (e : ValidationError)
  /-- `mask()` has no meaning (R116, U3); construct has excluded it. -/
  | maskOutsideDomain
  /-- `gridSize` exceeds MAX_GRID, against the premise of R118 (DESIGN CHOICE: log 26). -/
  | exceedsCapacity
deriving DecidableEq, Repr

/-- The host's whole program for one image (R117, R118): the model "is constructed once from validated input, masked exactly
once, then handed to the encoder", every write before START and none after it. A pattern that was not masked is in no
program (U4). -/
def encodeProgram (c : Config) (r : RawModel) : Except HostRefusal (List Input) :=
  match construct r with
  | .error e => .error (.invalid e)
  | .ok m =>
    match mask m with
    | none => .error .maskOutsideDomain
    | some masked => if masked.gridSize ≤ c.maxGrid then .ok (loadAndStart masked) else .error .exceedsCapacity

end Sys2Proof.Machine
end

