-- ==== Sys2Proof/Safety.lean ====
section
/-! DEFINITION. The terms claims use: what every reachable state satisfies, what a run has streamed, and comparisons of
outcomes. -/

namespace Sys2Proof.Machine

/-- Every GRID cell the run of size `G` can read has been written (R118, R252). -/
def cellsWritten (g : Grid) (G : Nat) : Prop := ∀ a, a < G * G → g.read a ≠ none

/-- No GRID cell of the run holds the value 3, what VALIDATE makes sure of (R180, R181). -/
def cellsInDomain (g : Grid) (G : Nat) : Prop := ∀ a, a < G * G → g.read a ≠ some 3

/-- Every listed cell exists in this instance (R35). -/
def gridInCapacity (c : Config) (g : Grid) : Prop := ∀ a, g.read a ≠ none → a < cellCount c

/-- A byte-producing phase (R25: PHASE >= 2). -/
def Phase.producesBytes : Phase → Bool
  | .none => false
  | .validate => false
  | .fileHeader => true
  | .infoHeader => true
  | .palette => true
  | .pixels => true

/-- What a run in progress looks like (R25, R131, R181): an accepted size and colours; before the first byte `pc = 0`; after
VALIDATE the phase is `PhaseOf(pc)`, `pc` is inside the file, and the run's cells are written and in the domain. -/
structure State.RunInv (s : State) : Prop where
  size      : acceptedSize s.cfg (gridG s) = true
  colours   : firstBadColour s = none
  notNone   : s.phase ≠ .none
  validate  : s.phase = .validate → s.pc = 0
  position  : s.phase.producesBytes = true → s.phase = phaseOf s.pc.toNat ∧ s.pc.toNat < fileSize (gridG s)
  cells     : s.phase.producesBytes = true → cellsWritten s.grid (gridG s) ∧ cellsInDomain s.grid (gridG s)

/-- The invariant of the block's registers and memory. -/
structure State.Inv (s : State) : Prop where
  /-- MAX_GRID is in its range (R11). -/
  cfg       : s.cfg.wf = true
  /-- The GRID memory is in canonical form and holds only existing cells (R35). -/
  gridForm  : s.grid.wf = true
  gridCells : gridInCapacity s.cfg s.grid
  /-- PHASE is 0 whenever STATE is not BUSY (R25). -/
  phase     : s.state ≠ .busy → s.phase = .none
  /-- ERRCODE is 0 exactly outside ERROR (R26), and code 5 is never raised (R223). -/
  errcode   : s.errcode = .none ↔ s.state ≠ .error
  noPalette : s.errcode ≠ .encPalette
  /-- ERRINFO is 0 unless STATE is ERROR (R32). -/
  errinfo   : s.state ≠ .error → s.errinfo = 0
  /-- In IDLE and in ERROR `pc` is 0 (R22, R31, R224). -/
  position  : s.state = .idle ∨ s.state = .error → s.pc = 0
  /-- In DONE `pc` is the file size of a size START accepts (R31, R205). -/
  done      : s.state = .done → ∃ G, acceptedSize s.cfg G = true ∧ s.pc.toNat = fileSize G
  /-- While BUSY the run is as `RunInv` says. -/
  run       : s.state = .busy → s.RunInv

/-- The last `k` bytes of the stream are the file's first `k` bytes, with their end marks (R22, R202, R203). -/
def State.hasStreamed (s : State) (k : Nat) : Prop :=
  ∃ earlier run : List OutByte, s.out = earlier ++ run ∧ run.length = k ∧ ∀ n, n < k → run[n]? = streamByte s n

/-- While a run produces bytes, what the sink has of it is exactly the file up to `pc` (R22, R54, R202). -/
def State.StreamInv (s : State) : Prop :=
  s.state = .busy → s.phase.producesBytes = true → s.hasStreamed s.pc.toNat

/-- Two outcomes of one kind whose next states, if they are next states, agree after `f`; a stop has the same reason. -/
def sameUpTo (f : State → State) : Result → Result → Prop
  | .next s, .next t => f s = f t
  | .fault a, .fault b => a = b
  | .refused a, .refused b => a = b
  | _, _ => False

/-- `k` steps, stopping at the first stop (the host's run over the model's own types: `runSteps_eq_run`). -/
def runSteps : Nat → State → Result
  | 0, s => .next s
  | k + 1, s => andThen (step s) (runSteps k)

/-- An input that is a reset: the reset step, or a clock edge with `rst = 1` (R250). -/
def Input.isReset : Input → Bool
  | .host _ => false
  | .engine => false
  | .sink _ => false
  | .reset => true
  | .edge p => p.rst

/-- The next step is a reset. -/
def State.resetNext (s : State) : Bool :=
  match s.inputs with
  | [] => false
  | i :: _ => i.isReset

/-- The level of `out_ready` the next step sees: a clock edge brings its own (R51). -/
def State.readyNext (s : State) : Bool :=
  match s.inputs with
  | .edge p :: _ => p.outReady
  | _ => s.outReady

/-- The REG write the next step makes, as the host's transaction or on the REG port of a clock edge without reset (R84, R68). -/
def State.regWriteNext (s : State) : Option (RegOffset × Word) :=
  match s.inputs with
  | .host (.wr offset data) :: _ => some (offset, data)
  | .edge p :: _ => if p.rst = false ∧ p.regWe = true then some (p.regAddr, p.regWdata) else none
  | _ => none

/-- The GRID write the next step makes (R84, R68). -/
def State.gridWriteNext (s : State) : Option (GridAddr × Cell) :=
  match s.inputs with
  | .host (.gw addr val) :: _ => some (addr, val)
  | .edge p :: _ => if p.rst = false ∧ p.gridWe = true then some (p.gridAddr, p.gridWdata) else none
  | _ => none

/-- The offsets of the four configuration registers (R135). -/
def isConfigOffset (offset : RegOffset) : Prop :=
  offset = 0x008#12 ∨ offset = 0x00C#12 ∨ offset = 0x010#12 ∨ offset = 0x014#12

/-- The atomic steps a clock edge stands for (R68): the level of `out_ready`, the reads ("Read data is taken from the state
before the edge"), the GRID write, the REG write, and one engine step if the state before the edge is BUSY. -/
def edgeAsInputs (p : Pins) (s : State) : List Input :=
  [.sink p.outReady]
    ++ (if p.gridRe then [.host (.gr p.gridAddr)] else [])
    ++ (if p.regRe then [.host (.rd p.regAddr)] else [])
    ++ (if p.gridWe then [.host (.gw p.gridAddr p.gridWdata)] else [])
    ++ (if p.regWe then [.host (.wr p.regAddr p.regWdata)] else [])
    ++ (if s.state = .busy then [.engine] else [])

/-- What a loading sequence leaves (R118): the model's size and colours in the registers, `g` in the GRID, and no input left. -/
def loadedWith (s : State) (m : GridModel) (g : Grid) : State :=
  { s with
    inputs := [], grid := g, gridSize := BitVec.ofNat 32 m.gridSize, color0 := BitVec.ofNat 32 m.color0,
    color1 := BitVec.ofNat 32 m.color1, color2 := BitVec.ofNat 32 m.color2 }

/-- The cell in row `i`, column `j` of a matrix given as a list of rows (R110). -/
def entry (m : List (List Nat)) (i j : Nat) : Option Nat := (m[i]?).bind fun row => row[j]?

/-- The configuration and the grid, what a run reads (R65). -/
def sameSnapshot (s t : State) : Prop :=
  t.cfg = s.cfg ∧ t.gridSize = s.gridSize ∧ t.color0 = s.color0 ∧ t.color1 = s.color1 ∧ t.color2 = s.color2
    ∧ t.grid = s.grid

end Sys2Proof.Machine
end

