-- ==== Sys2Proof/Certificates/Slice0/Obligations.lean ====
section
/-! DEFINITION. The statements for the provers, from the numbered rules of spec/. -/

open Sys2Proof Sys2Proof.Machine

/-! ## Encodings -/

/-- Sanity: the opcode table's own words decode to their rows (R82, R83; the numbering of a table word is log 10). -/
def Obligations.TableWordsDecodeToTheirRows : Prop :=
  decodeTableWord 32 0x00000000 = some .nop ∧ decodeTableWord 32 0x00000001 = some .start
    ∧ decodeTableWord 32 0x00000002 = some .clear ∧ decodeTableWord 32 0x00000101 = none
    ∧ decodeTableWord 8 0b001 = some .validate ∧ decodeTableWord 8 0b010 = some .fileHeader
    ∧ decodeTableWord 8 0b011 = some .infoHeader ∧ decodeTableWord 8 0b100 = some .palette
    ∧ decodeTableWord 8 0b101 = some .pixels ∧ decodeTableWord 8 0b110 = none

/-- R82: the command decode compares all 32 bits; the three codes and nothing else are commands. -/
def Obligations.CommandDecodeComparesAllBits : Prop :=
  ∀ w : Word,
    (w.toNat = 0 → decodeCmd w = .ok .nop) ∧ (w.toNat = 1 → decodeCmd w = .ok .start)
      ∧ (w.toNat = 2 → decodeCmd w = .ok .clear) ∧ (3 ≤ w.toNat → decodeCmd w = .error (.reservedCommand w))

/-- R83: the PHASE codes name the phases of the engine, 000 is NONE, 110 and 111 are no phase; the code a state's PHASE field
carries is one of the first six. -/
def Obligations.PhaseCodesNameTheEngineSteps : Prop :=
  (∀ c : BitVec 3,
    (c.toNat = 0 → decodePhase c = .error .noPhase) ∧ (c.toNat = 1 → decodePhase c = .ok .validate)
      ∧ (c.toNat = 2 → decodePhase c = .ok .fileHeader) ∧ (c.toNat = 3 → decodePhase c = .ok .infoHeader)
      ∧ (c.toNat = 4 → decodePhase c = .ok .palette) ∧ (c.toNat = 5 → decodePhase c = .ok .pixels)
      ∧ (6 ≤ c.toNat → decodePhase c = .error (.reservedPhase c)))
    ∧ ∀ s : State, s.phase.code.toNat < 6

/-- Every instruction has exactly one code in the two formats, and the decoder reads it back: decode and encode agree in both
directions, over every 32-bit command word and every 3-bit phase. -/
def Obligations.DecodeAndEncodeAgree : Prop :=
  ∀ (c : Code) (i : Instr), Instr.wf i = true → (decode c = .ok i ↔ c = encode i)

/-! ## A step runs the decoded instruction -/

/-- A command word the host writes to CMD, or the PHASE code of a run in progress, that decodes to an instruction: the step is
the meaning of that instruction, on the state with the input taken. -/
def Obligations.StepRunsTheDecodedInstruction : Prop :=
  (∀ (s : State) (w : Word) (i : Instr) (rest : List Input),
    s.inputs = .host (.wr 0x000#12 w) :: rest → decode (.cmd w) = .ok i →
      step s = exec i { s with inputs := rest })
  ∧ (∀ (s : State) (i : Instr) (rest : List Input),
    s.state = .busy → decode (.phase s.phase.code) = .ok i → s.inputs = .engine :: rest →
      step s = exec i { s with inputs := rest })
  ∧ (∀ (s : State) (i : Instr),
    s.state = .busy → decode (.phase s.phase.code) = .ok i → s.inputs = [] → step s = exec i s)

/-- The model's convention (log 9): a table word placed by `withFetchWord` is what the very next step runs; a phase is run in a
run in progress at the first offset of that phase. -/
def Obligations.FetchWordIsRunNext : Prop :=
  ∀ (s : State) (nbits w : Nat) (i : Instr), decodeTableWord nbits w = some i →
    ∃ u : State, step (s.withFetchWord nbits w) = exec i u ∧ u.inputs = s.inputs ∧ u.cfg = s.cfg ∧ u.out = s.out
      ∧ (nbits ≤ 8 → u.state = .busy ∧ encode i = .phase u.phase.code ∧ u.pc = firstOffset u.phase)
      ∧ (8 < nbits → u = s)

/-! ## Commands -/

/-- R130: NOP does nothing in every state, as an instruction and as the host's write to CMD. -/
def Obligations.NopChangesNothing : Prop :=
  ∀ s : State, exec .nop s = .next s
    ∧ ∀ rest, s.inputs = .host (.wr 0x000#12 0x00000000#32) :: rest → step s = .next { s with inputs := rest }

/-- R131: an executed START clears pc, ERRCODE, ERRINFO and PHASE, makes its four checks in order, and either enters ERROR with
the first that fires or begins the run; nothing else changes. -/
def Obligations.StartChecksThenBeginsTheRun : Prop :=
  ∀ s : State, s.state ≠ .busy →
    let G := s.gridSize.toNat
    let bad := fun c : Word => 0x1000000 ≤ c.toNat
    let failed := fun (code : ErrCode) (info : Word) =>
      ({ s with pc := 0, state := .error, phase := .none, errcode := code, errinfo := info } : State)
    (G = 0 → exec .start s = .next (failed .valGridSize s.gridSize))
    ∧ (G ≠ 0 → bad s.color0 → exec .start s = .next (failed .valColor 0))
    ∧ (G ≠ 0 → ¬bad s.color0 → bad s.color1 → exec .start s = .next (failed .valColor 1))
    ∧ (G ≠ 0 → ¬bad s.color0 → ¬bad s.color1 → bad s.color2 → exec .start s = .next (failed .valColor 2))
    ∧ (¬bad s.color0 → ¬bad s.color1 → ¬bad s.color2 → 65535 < 32 * G →
        exec .start s = .next (failed .encGeometry s.gridSize))
    ∧ (¬bad s.color0 → ¬bad s.color1 → ¬bad s.color2 → G ≠ 0 → 32 * G ≤ 65535 → s.cfg.maxGrid < G →
        exec .start s = .next (failed .encCapacity s.gridSize))
    ∧ (¬bad s.color0 → ¬bad s.color1 → ¬bad s.color2 → G ≠ 0 → 32 * G ≤ 65535 → G ≤ s.cfg.maxGrid →
        exec .start s =
          .next { s with pc := 0, errcode := .none, errinfo := 0, state := .busy, phase := .validate })

/-- R132: an executed CLEAR returns to IDLE with the flags, the error and pc cleared and `done` and `error` at 0; GRID_SIZE, the
colours, GRID and everything else stay. While BUSY it is not executed. -/
def Obligations.ClearReturnsToIdle : Prop :=
  ∀ s : State,
    (s.state ≠ .busy →
      ∃ t : State, exec .clear s = .next t ∧ doneWire t = false ∧ errorWire t = false
        ∧ t = { s with state := .idle, phase := .none, errcode := .none, errinfo := 0,
                       badcmd := false, busywr := false, pc := 0 })
    ∧ (s.state = .busy → exec .clear s = .next { s with badcmd := true })

/-- R133: a reserved command in any state, and START or CLEAR while BUSY, change nothing except BADCMD, as the host's write to
CMD. -/
def Obligations.CommandsNotExecutedOnlySetBadcmd : Prop :=
  ∀ (s : State) (w : Word) (rest : List Input), s.inputs = .host (.wr 0x000#12 w) :: rest →
    (3 ≤ w.toNat ∨ (s.state = .busy ∧ (w.toNat = 1 ∨ w.toNat = 2))) →
      step s = .next { s with badcmd := true, inputs := rest }

/-! ## Engine steps -/

/-- R180: VALIDATE, whatever the sink does. No cell of the run holds 3: PHASE becomes FILE_HEADER. Some cell holds 3: error code
3 with the lowest such address. Nothing else changes. (The run's cells are written: what an unwritten cell does is
`NeverWrittenCellsAreRefused`.) -/
def Obligations.ValidateScansTheCells : Prop :=
  ∀ s : State, s.state = .busy → s.phase = .validate → cellsWritten s.grid (gridG s) →
    ((∀ a, a < gridG s * gridG s → s.grid.read a ≠ some 3) →
      exec .validate s = .next { s with phase := .fileHeader })
    ∧ (∀ a, a < gridG s * gridG s → s.grid.read a = some 3 → (∀ b, b < a → s.grid.read b ≠ some 3) →
      exec .validate s =
        .next { s with state := .error, phase := .none, errcode := .valCell, errinfo := BitVec.ofNat 32 a })

/-- The model's reading of "a run that reads such a cell no meaning" (R252, U1; log 1): VALIDATE and GR refuse a cell never
written, naming it. -/
def Obligations.NeverWrittenCellsAreRefused : Prop :=
  (∀ (s : State) (a : Nat), s.state = .busy → s.phase = .validate → a < gridG s * gridG s → s.grid.read a = none →
    (∀ b, b < a → s.grid.read b ≠ none) → exec .validate s = .refused (.unwrittenCell a))
  ∧ (∀ (s : State) (a : GridAddr) (rest : List Input), s.inputs = .host (.gr a) :: rest →
    a.toNat < s.cfg.maxGrid * s.cfg.maxGrid → s.grid.read a.toNat = none →
      step s = .refused (.unwrittenCell a.toNat))

/-- R151: the FILE_HEADER phase hands over `FH[pc]` and goes to the next offset, INFO_HEADER after offset 13. -/
def Obligations.FileHeaderTransfersItsByte : Prop :=
  ∀ (s : State) (b : Byte), s.state = .busy → s.phase = .fileHeader → s.outReady = true →
    let FS := 74 + 512 * gridG s * gridG s
    ([s.cfg.signature0, s.cfg.signature1, byteOf FS 0, byteOf FS 1, byteOf FS 2, byteOf FS 3, 0, 0, 0, 0,
      0x4A, 0, 0, 0] : List Byte)[s.pc.toNat]? = some b →
    exec .fileHeader s =
      .next { s with out := s.out ++ [{ data := b, last := false }], pc := s.pc + 1,
                     phase := if s.pc.toNat = 13 then .infoHeader else .fileHeader }

/-- R156: the INFO_HEADER phase hands over `IH[pc - 14]` and goes to the next offset, PALETTE after offset 25. -/
def Obligations.InfoHeaderTransfersItsByte : Prop :=
  ∀ (s : State) (b : Byte), s.state = .busy → s.phase = .infoHeader → s.outReady = true → 14 ≤ s.pc.toNat →
    let S := 32 * gridG s
    ([0x0C, 0, 0, 0, byteOf S 0, byteOf S 1, byteOf S 0, byteOf S 1, 1, 0, 4, 0] : List Byte)[s.pc.toNat - 14]?
      = some b →
    exec .infoHeader s =
      .next { s with out := s.out ++ [{ data := b, last := false }], pc := s.pc + 1,
                     phase := if s.pc.toNat = 25 then .palette else .infoHeader }

/-- R170: the PALETTE phase hands over component `(pc-26) mod 3` (blue, green, red) of slot `(pc-26) div 3`: slots 0, 1, 2 are
the colour registers' low 24 bits, the rest are 0. It goes to the next offset, PIXELS after offset 73 (a run's size is
never 0). -/
def Obligations.PaletteTransfersItsByte : Prop :=
  ∀ s : State, s.state = .busy → s.phase = .palette → s.outReady = true → gridG s ≠ 0 →
    26 ≤ s.pc.toNat → s.pc.toNat < 74 →
    let k := (s.pc.toNat - 26) / 3
    let c := (s.pc.toNat - 26) % 3
    let slot := if k = 0 then s.color0.toNat % 0x1000000 else if k = 1 then s.color1.toNat % 0x1000000
      else if k = 2 then s.color2.toNat % 0x1000000 else 0
    exec .palette s =
      .next { s with out := s.out ++ [{ data := BitVec.ofNat 8 ((slot >>> (8 * c)) % 256), last := false }],
                     pc := s.pc + 1, phase := if s.pc.toNat = 73 then .pixels else .palette }

/-- R91 with R182 and R183: the PIXELS phase hands over the byte whose form the position inside the cell selects, for the cell
the mirrored row and the column sample; at the last offset the byte carries `last` and the run is DONE. (A cell of the run is
never 3 here, R181: `EveryStepKeepsTheInvariant`.) -/
def Obligations.PixelsTransfersItsByte : Prop :=
  ∀ (s : State) (v : Cell), s.state = .busy → s.phase = .pixels → s.outReady = true →
    let G := gridG s
    let FS := 74 + 512 * G * G
    let y := (s.pc.toNat - 74) / (16 * G)
    let xb := (s.pc.toNat - 74) % (16 * G)
    74 ≤ s.pc.toNat → s.pc.toNat < FS → s.grid.read ((G - 1 - y / 32) * G + xb / 16) = some v → v ≠ 3 →
    exec .pixels s =
      .next (if s.pc.toNat = FS - 1 then
          { s with out := s.out ++ [{ data := pixelByteForm (y % 32) (xb % 16) v, last := true }],
                   pc := s.pc + 1, state := .done, phase := .none }
        else
          { s with out := s.out ++ [{ data := pixelByteForm (y % 32) (xb % 16) v, last := false }],
                   pc := s.pc + 1 })

/-- From R202, R203 and R54: whatever byte-producing phase the engine is in, a transfer hands over `EncByte(pc)` with `last`
exactly at `FS - 1`, and `pc` counts it; no other step hands over a byte. -/
def Obligations.EveryByteIsEncByteAtPc : Prop :=
  ∀ s t : State, step s = .next t →
    t.out = s.out
    ∨ (s.state = .busy ∧ s.phase.producesBytes = true ∧ s.readyNext = true ∧ s.resetNext = false
        ∧ t.pc = s.pc + 1 ∧ ∃ b, streamByte s s.pc.toNat = some b ∧ t.out = s.out ++ [b])

/-- R263: a sink that is not ready keeps the engine where it is, with the same byte offered. (That the engine has the turn when
no input is left, and that `out_ready` is a level of the state, are the model's choices: logs 3, 5.) -/
def Obligations.UnreadySinkHoldsTheByte : Prop :=
  ∀ s : State, s.state = .busy → s.phase.producesBytes = true → s.outReady = false → s.inputs = [] →
    step s = .next s

/-- The model's choice (log 4): a turn given to an engine step that is not enabled changes nothing. -/
def Obligations.EngineStepsNotEnabledChangeNothing : Prop :=
  ∀ s : State,
    (s.state ≠ .busy → engineTurn s = .next s)
    ∧ (¬(s.state = .busy ∧ s.phase = .validate) → exec .validate s = .next s)
    ∧ (¬(s.state = .busy ∧ s.phase = .fileHeader ∧ s.outReady = true) → exec .fileHeader s = .next s)
    ∧ (¬(s.state = .busy ∧ s.phase = .infoHeader ∧ s.outReady = true) → exec .infoHeader s = .next s)
    ∧ (¬(s.state = .busy ∧ s.phase = .palette ∧ s.outReady = true) → exec .palette s = .next s)
    ∧ (¬(s.state = .busy ∧ s.phase = .pixels ∧ s.outReady = true) → exec .pixels s = .next s)

/-! ## Host accesses -/

/-- R23: the fields of STATUS, its reserved bits, its reset value, and that neither reading nor writing it changes anything (the
answer of a read appears on `reg_rdata`, R51); and the numbers of the codes its fields hold (R24, R25, R26). -/
def Obligations.StatusIsComposedFromItsFields : Prop :=
  (RunState.idle.code.toNat = 0 ∧ RunState.busy.code.toNat = 1 ∧ RunState.done.code.toNat = 2
    ∧ RunState.error.code.toNat = 3)
  ∧ (Phase.none.code.toNat = 0 ∧ Phase.validate.code.toNat = 1 ∧ Phase.fileHeader.code.toNat = 2
    ∧ Phase.infoHeader.code.toNat = 3 ∧ Phase.palette.code.toNat = 4 ∧ Phase.pixels.code.toNat = 5)
  ∧ (ErrCode.none.code.toNat = 0 ∧ ErrCode.valGridSize.code.toNat = 1 ∧ ErrCode.valColor.code.toNat = 2
    ∧ ErrCode.valCell.code.toNat = 3 ∧ ErrCode.encGeometry.code.toNat = 4 ∧ ErrCode.encPalette.code.toNat = 5
    ∧ ErrCode.encCapacity.code.toNat = 6)
  ∧ statusWord State.reset = 0 ∧ ∀ s : State,
    (statusWord s).toNat =
      s.state.code.toNat + 4 * s.phase.code.toNat + 256 * s.errcode.code.toNat
        + (if s.badcmd then 4096 else 0) + (if s.busywr then 8192 else 0)
    ∧ (∀ rest, s.inputs = .host (.rd 0x004#12) :: rest →
        step s = .next { s with inputs := rest, regRdata := statusWord s })
    ∧ (∀ d rest, s.inputs = .host (.wr 0x004#12 d) :: rest → step s = .next { s with inputs := rest })

/-- R136: what RD returns at every offset, in every state, with no side effect. -/
def Obligations.ReadReturnsTheAddressedRegister : Prop :=
  ∀ (s : State) (o : RegOffset) (rest : List Input), s.inputs = .host (.rd o) :: rest →
    ∃ v : Word, step s = .next { s with inputs := rest, regRdata := v }
      ∧ (o.toNat = 0x00 → v = 0) ∧ (o.toNat = 0x04 → v = statusWord s) ∧ (o.toNat = 0x08 → v = s.gridSize)
      ∧ (o.toNat = 0x0C → v = s.color0) ∧ (o.toNat = 0x10 → v = s.color1) ∧ (o.toNat = 0x14 → v = s.color2)
      ∧ (o.toNat = 0x18 → v = s.pc) ∧ (o.toNat = 0x1C → v = s.errinfo)
      ∧ (0x20 ≤ o.toNat ∨ o.toNat % 4 ≠ 0 → v = 0)

/-- R135: WR to GRID_SIZE, COLOR0, COLOR1 or COLOR2 stores all 32 bits unless BUSY; while BUSY it is dropped and sets BUSYWR. -/
def Obligations.ConfigurationWriteIsStoredOrDropped : Prop :=
  ∀ (s : State) (o : RegOffset) (d : Word) (rest : List Input), s.inputs = .host (.wr o d) :: rest →
    (isConfigOffset o → s.state = .busy → step s = .next { s with inputs := rest, busywr := true })
    ∧ (s.state ≠ .busy →
        (o.toNat = 0x08 → step s = .next { s with inputs := rest, gridSize := d })
        ∧ (o.toNat = 0x0C → step s = .next { s with inputs := rest, color0 := d })
        ∧ (o.toNat = 0x10 → step s = .next { s with inputs := rest, color1 := d })
        ∧ (o.toNat = 0x14 → step s = .next { s with inputs := rest, color2 := d }))

/-- R137 and R138: a write to STATUS, BYTE_COUNT or ERRINFO, or to an unmapped or misaligned offset, is ignored in every state;
a read of an unmapped or misaligned offset returns 0. -/
def Obligations.ReadOnlyAndUnmappedWritesAreIgnored : Prop :=
  ∀ (s : State) (o : RegOffset) (rest : List Input),
    (o.toNat = 0x04 ∨ o.toNat = 0x18 ∨ o.toNat = 0x1C ∨ 0x20 ≤ o.toNat ∨ o.toNat % 4 ≠ 0 →
      ∀ d, s.inputs = .host (.wr o d) :: rest → step s = .next { s with inputs := rest })
    ∧ (0x20 ≤ o.toNat ∨ o.toNat % 4 ≠ 0 →
      s.inputs = .host (.rd o) :: rest → step s = .next { s with inputs := rest, regRdata := 0 })

/-- R139: GW. While BUSY the write is dropped and sets BUSYWR; otherwise it writes the one cell if there is such a cell, leaving
every other cell and everything else, and is ignored if there is none. -/
def Obligations.GridWriteWritesOneCell : Prop :=
  ∀ (s : State) (a : GridAddr) (v : Cell) (rest : List Input), s.inputs = .host (.gw a v) :: rest →
    (s.state = .busy → step s = .next { s with inputs := rest, busywr := true })
    ∧ (s.state ≠ .busy → a.toNat < s.cfg.maxGrid * s.cfg.maxGrid →
        ∃ g : Grid, step s = .next { s with inputs := rest, grid := g } ∧ g.read a.toNat = some v
          ∧ ∀ b, b ≠ a.toNat → g.read b = s.grid.read b)
    ∧ (s.state ≠ .busy → s.cfg.maxGrid * s.cfg.maxGrid ≤ a.toNat → step s = .next { s with inputs := rest })

/-- GR returns the content of a written cell, and 0 where there is no such cell, in every state and with no side effect (the
answer appears on `grid_rdata`, log 6; a cell never written is `NeverWrittenCellsAreRefused`). -/
def Obligations.GridReadReturnsTheCell : Prop :=
  ∀ (s : State) (a : GridAddr) (rest : List Input), s.inputs = .host (.gr a) :: rest →
    (∀ v, a.toNat < s.cfg.maxGrid * s.cfg.maxGrid → s.grid.read a.toNat = some v →
      step s = .next { s with inputs := rest, gridRdata := v })
    ∧ (s.cfg.maxGrid * s.cfg.maxGrid ≤ a.toNat → step s = .next { s with inputs := rest, gridRdata := 0 })

/-- R59: a read of any register or cell changes no state (the read data ports, R51, apart) and can be repeated; a write other
than one to CMD changes (those ports apart) only its datum, or BUSYWR while BUSY (R135, R139). -/
def Obligations.ReadsHaveNoSideEffect : Prop :=
  ∀ (s t : State) (op : HostOp) (rest : List Input), s.inputs = .host op :: rest → step s = .next t →
    ((∀ o d, op ≠ .wr o d) → (∀ a v, op ≠ .gw a v) →
      t = { s with inputs := rest, regRdata := t.regRdata, gridRdata := t.gridRdata }
        ∧ step { t with inputs := .host op :: rest } = .next t)
    ∧ ((∀ d, op ≠ .wr 0x000#12 d) →
      t = { s with inputs := rest, busywr := t.busywr, gridSize := t.gridSize, color0 := t.color0, color1 := t.color1,
                   color2 := t.color2, grid := t.grid, regRdata := t.regRdata, gridRdata := t.gridRdata }
        ∧ (t.busywr = s.busywr ∨ (s.state = .busy ∧ t.busywr = true))
        ∧ (t.gridSize = s.gridSize ∨ op = .wr 0x008#12 t.gridSize)
        ∧ (t.color0 = s.color0 ∨ op = .wr 0x00C#12 t.color0)
        ∧ (t.color1 = s.color1 ∨ op = .wr 0x010#12 t.color1)
        ∧ (t.color2 = s.color2 ∨ op = .wr 0x014#12 t.color2)
        ∧ ∀ a, t.grid.read a = s.grid.read a
            ∨ ∃ (ga : GridAddr) (v : Cell), op = .gw ga v ∧ ga.toNat = a ∧ t.grid.read a = some v)

/-! ## Reset -/

/-- From R250: the reset step, as an input or as a clock edge with `rst = 1` whatever its strobes are, from every state: all
registers to 0, STATE IDLE, `out_valid`, `done` and `error` low, GRID unchanged. That the read data ports hold (log 6), that
the stream taken so far stays (log 7), that the level of `out_ready` stays over the reset step (log 5) and is the pin's over
a reset edge (log 15), and that the later inputs stay (log 3), is the model's. -/
def Obligations.ResetClearsTheRegistersAndKeepsGrid : Prop :=
  ∀ (s : State) (i : Input) (rest : List Input), s.inputs = i :: rest → i.isReset = true →
    ∃ t : State, step s = .next t ∧ outValid t = false ∧ doneWire t = false ∧ errorWire t = false
      ∧ statusWord t = 0 ∧ (i = .reset → t.outReady = s.outReady) ∧ (∀ p, i = .edge p → t.outReady = p.outReady)
      ∧ t = { s with state := .idle, phase := .none, errcode := .none, badcmd := false, busywr := false,
                     gridSize := 0, color0 := 0, color1 := 0, color2 := 0, pc := 0, errinfo := 0,
                     inputs := rest, outReady := t.outReady }

/-- From R39: with GRID_SIZE at its reset value a START fails with VAL_GRID_SIZE, so an unconfigured block emits nothing. -/
def Obligations.StartStraightAfterResetFails : Prop :=
  ∀ s t : State, s.resetNext = true → step s = .next t →
    ∃ u : State, exec .start t = .next u ∧ u.state = .error ∧ u.errcode = .valGridSize ∧ u.errinfo = 0
      ∧ u.out = s.out ∧ statusWord u = 0x00000103#32

/-! ## Invariants -/

/-- The invariant and the stream invariant hold after power-up and reset. -/
def Obligations.ResetStateSatisfiesTheInvariants : Prop :=
  State.reset.Inv ∧ State.reset.StreamInv

/-- Every step, whatever the input, keeps the invariant: a legal PHASE for every STATE, ERRCODE and ERRINFO only in ERROR, the
position inside the file of the phase, the GRID memory in canonical form and inside the capacity. -/
def Obligations.EveryStepKeepsTheInvariant : Prop :=
  ∀ s t : State, s.Inv → step s = .next t → t.Inv

/-- Every step keeps the stream invariant: what the sink has of a run in progress is the file up to `pc`, byte for byte. -/
def Obligations.EveryStepKeepsTheStream : Prop :=
  ∀ s t : State, s.Inv → s.StreamInv → step s = .next t → t.StreamInv

/-- From R205: a run that ends in DONE has given the sink exactly the FS bytes of the file, the last one marked, and `pc =
FS`; a step into ERROR has given nothing and leaves `pc` at 0. -/
def Obligations.EndedRunGaveTheWholeFileOrNothing : Prop :=
  ∀ s t : State, s.Inv → s.StreamInv → step s = .next t →
    (s.state = .busy → t.state = .done →
      t.pc.toNat = fileSize (gridG s) ∧ doneWire t = true
        ∧ ∃ earlier run : List OutByte, t.out = earlier ++ run ∧ run.length = fileSize (gridG s)
          ∧ ∀ n, n < fileSize (gridG s) → run[n]? = streamByte s n)
    ∧ (t.state = .error → t.pc = 0 ∧ errorWire t = true ∧ t.out = s.out)

/-- From R142: an accepted START on a written, in-domain grid with a ready sink runs to DONE in one `validate` step and `FS`
transfers, and hands over the whole file. (That the engine takes every turn once no input is left is the model's choice,
log 3; the level of the sink is log 5.) -/
def Obligations.AcceptedStartRunsToDone : Prop :=
  ∀ s : State, s.state ≠ .busy → s.inputs = [.host (.wr 0x000#12 0x00000001#32)] → s.outReady = true →
    acceptedSize s.cfg (gridG s) = true → firstBadColour s = none →
    cellsWritten s.grid (gridG s) → cellsInDomain s.grid (gridG s) →
    ∃ run : List OutByte, run.length = 74 + 512 * gridG s * gridG s
      ∧ (∀ n, n < run.length → run[n]? = streamByte s n)
      ∧ runSteps (1 + (1 + run.length)) s =
          .next { s with state := .done, phase := .none, errcode := .none, errinfo := 0,
                         pc := BitVec.ofNat 32 run.length, out := s.out ++ run, inputs := [] }

/-- From "after VALIDATE nothing can fail" (R181) and R203: a state of the invariant in a byte-producing phase has a next state
when no input is left (that the engine then has the turn is the model's, log 3, and that the turn changes nothing while the
sink is not ready, log 4). No state of the invariant is stuck: the one fault is the model's, log 12. A refusal, the model's
too, is a never-written cell read by VALIDATE or GR (log 1), or two accesses on one port (log 13). -/
def Obligations.NoStopOnceTheBytesFlow : Prop :=
  ∀ s : State, s.Inv →
    (∀ e, step s ≠ .fault e)
    ∧ (s.state = .busy → s.phase.producesBytes = true → s.inputs = [] → ∃ t, step s = .next t)
    ∧ (∀ r, step s = .refused r →
        (∃ a, r = .unwrittenCell a ∧ s.grid.read a = none)
        ∨ (r = .twoAccessesOnePort ∧ ∃ p rest, s.inputs = .edge p :: rest ∧ p.wf = false))

/-! ## Whole-machine rules -/

/-- From R24: the transitions of STATE, and no others: into BUSY only by START, into DONE only by a transfer, out of BUSY
only by VALIDATE's error, the last transfer or reset, never by the host. -/
def Obligations.StateChangesOnlyAsListed : Prop :=
  ∀ s t : State, s.Inv → step s = .next t →
    (s.state = .busy → t.state ≠ .busy →
      (s.resetNext = true ∧ t.state = .idle)
      ∨ (s.phase = .validate ∧ t.state = .error ∧ t.errcode = .valCell)
      ∨ (t.state = .done ∧ t.out ≠ s.out))
    ∧ (s.state ≠ .busy → t.state ≠ s.state →
      (s.resetNext = true ∧ t.state = .idle)
      ∨ (s.regWriteNext = some (0x000#12, 0x00000001#32) ∧ (t.state = .busy ∨ t.state = .error))
      ∨ (s.regWriteNext = some (0x000#12, 0x00000002#32) ∧ t.state = .idle))
    ∧ (s.state = .busy → ∀ op rest, s.inputs = .host op :: rest → t.state = .busy)

/-- From R22: `pc` is set to 0 by reset, START and CLEAR, incremented by exactly 1 by a transfer, and changed by nothing
else; it never wraps. -/
def Obligations.PcCountsTransfers : Prop :=
  ∀ s t : State, s.Inv → step s = .next t → t.pc ≠ s.pc →
    (t.pc.toNat = s.pc.toNat + 1 ∧ s.state = .busy ∧ t.out.length = s.out.length + 1)
    ∨ (t.pc = 0 ∧ t.out = s.out
        ∧ (s.resetNext = true
            ∨ (s.state ≠ .busy ∧ (s.regWriteNext = some (0x000#12, 0x00000001#32)
                ∨ s.regWriteNext = some (0x000#12, 0x00000002#32)))))

/-- R65: while BUSY, no step but a reset changes GRID_SIZE, the colours or any cell, so the byte at every offset of the file is
the one the state at START gives. -/
def Obligations.RunReadsASnapshot : Prop :=
  ∀ s t : State, s.state = .busy → s.resetNext = false → step s = .next t →
    sameSnapshot s t ∧ ∀ n, streamByte t n = streamByte s n

/-- R53: a cell changes only by a `GW` to it while STATE is not BUSY; the engine, the commands and reset never write GRID. -/
def Obligations.OnlyGridWritesChangeGrid : Prop :=
  ∀ (s t : State) (a : Nat), step s = .next t → t.grid.read a ≠ s.grid.read a →
    s.state ≠ .busy ∧ ∃ (ga : GridAddr) (v : Cell), s.gridWriteNext = some (ga, v) ∧ ga.toNat = a
      ∧ t.grid.read a = some v

/-- The sticky flags are set and cleared only as R27 says: BADCMD by a command that is not executed, BUSYWR by a dropped write,
both cleared only by an executed CLEAR and by reset. -/
def Obligations.StickyFlagsChangeOnlyAsListed : Prop :=
  ∀ s t : State, step s = .next t →
    (s.badcmd = false → t.badcmd = true →
      ∃ w : Word, s.regWriteNext = some (0x000#12, w)
        ∧ (3 ≤ w.toNat ∨ (s.state = .busy ∧ (w.toNat = 1 ∨ w.toNat = 2))))
    ∧ (s.busywr = false → t.busywr = true →
      s.state = .busy
        ∧ ((∃ o d, s.regWriteNext = some (o, d) ∧ isConfigOffset o) ∨ ∃ w, s.gridWriteNext = some w))
    ∧ ((s.badcmd = true ∧ t.badcmd = false) ∨ (s.busywr = true ∧ t.busywr = false) →
      s.resetNext = true ∨ (s.state ≠ .busy ∧ s.regWriteNext = some (0x000#12, 0x00000002#32)))

/-- Nothing in the block reads the sticky flags: they do not change what any command or engine step does. -/
def Obligations.StickyFlagsInfluenceNothing : Prop :=
  ∀ (i : Instr) (s : State) (b w : Bool),
    sameUpTo clearFlags (exec i { s with badcmd := b, busywr := w }) (exec i s)

/-- What the host does between two transfers does not change the offered byte (R203, R65), and an offered byte is
`EncByte(pc)`. -/
def Obligations.HostCannotChangeTheOfferedByte : Prop :=
  ∀ (s t : State) (op : HostOp) (rest : List Input), s.Inv → s.state = .busy → s.inputs = .host op :: rest →
    step s = .next t →
    offered t = offered s ∧ (s.phase.producesBytes = true → ∃ b, offered s = some b)

/-- From R224: an error is raised by START with code 1, 2, 4 or 6 or by VALIDATE with code 3, before any byte of the run;
the state at ERROR is the state before with only STATE, PHASE, ERRCODE, ERRINFO and pc changed. -/
def Obligations.ErrorsArePreciseAndBeforeTheFirstByte : Prop :=
  ∀ (i : Instr) (s t : State), s.Inv → exec i s = .next t → t.state = .error → (s.state ≠ .error ∨ i = .start) →
    t = { s with state := .error, phase := .none, errcode := t.errcode, errinfo := t.errinfo, pc := 0 }
    ∧ ((i = .start ∧ (t.errcode = .valGridSize ∨ t.errcode = .valColor ∨ t.errcode = .encGeometry
          ∨ t.errcode = .encCapacity))
      ∨ (i = .validate ∧ s.phase = .validate ∧ s.pc = 0 ∧ t.errcode = .valCell))

/-- From R68: a clock edge without reset is the sequence of atomic steps it stands for, whatever its strobes are: the reads, the
GRID write, the REG write, one engine step if the state before was BUSY. The level of `out_ready`, which comes first (log 5),
the one engine step of an edge (log 14), and the refusal of two accesses on one port (log 13) are the model's. -/
def Obligations.ClockEdgeIsItsStepSequence : Prop :=
  ∀ (s : State) (p : Pins) (rest : List Input), p.rst = false →
    (p.wf = true →
      step { s with inputs := .edge p :: rest } =
        runSteps (edgeAsInputs p s).length { s with inputs := edgeAsInputs p s ++ rest })
    ∧ (p.wf = false → step { s with inputs := .edge p :: rest } = .refused .twoAccessesOnePort)

/-- From R68: the read data of a clock edge is taken from the state before the edge, whatever the other port and the engine
do in the same cycle (the read data ports are fields of the model, log 6). -/
def Obligations.ClockEdgeReadsSeeTheStateBefore : Prop :=
  ∀ (s t : State) (p : Pins) (rest : List Input), s.inputs = .edge p :: rest → p.rst = false → step s = .next t →
    (p.regRe = true → ∃ u : State, step { s with inputs := [.host (.rd p.regAddr)] } = .next u
      ∧ t.regRdata = u.regRdata)
    ∧ (p.gridRe = true → ∃ u : State, step { s with inputs := [.host (.gr p.gridAddr)] } = .next u
      ∧ t.gridRdata = u.gridRdata)

/-! ## The file -/

/-- From R162: the closed form of the 26 header bytes agrees with the two header layouts. -/
def Obligations.HeaderClosedFormAgrees : Prop :=
  ∀ (c : Config) (G n : Nat), n < 26 →
    (fileHeaderBytes c G ++ infoHeaderBytes G)[n]? = some (hdrByte c G n)

/-- From R170, R173 and R202: the closed form of the palette bytes is the file's byte and agrees with the 16 entries, and only the
offsets 26..34 can be non-zero. -/
def Obligations.PaletteClosedFormAgrees : Prop :=
  ∀ (s : State) (n : Nat), 26 ≤ n → n < 74 →
    encByte s n = some (palByte s n) ∧ (paletteBytes s)[n - 26]? = some (palByte s n)
      ∧ (35 ≤ n → palByte s n = 0)

/-- From R206: the file is exactly `14 + 12 + 48 + (G*32)^2/2` bytes long, and that is the little-endian number at offsets
2..5. -/
def Obligations.FileLengthIsExact : Prop :=
  ∀ (s : State) (bytes : List Byte), acceptedSize s.cfg (gridG s) = true →
    encodeFile s = some bytes →
    bytes.length = 14 + 12 + 48 + (gridG s * 32) ^ 2 / 2
    ∧ ∃ b2 b3 b4 b5 : Byte, bytes[2]? = some b2 ∧ bytes[3]? = some b3 ∧ bytes[4]? = some b4 ∧ bytes[5]? = some b5
      ∧ bytes.length = b2.toNat + 256 * b3.toNat + 65536 * b4.toNat + 16777216 * b5.toNat

/-- R182: the scan indices are the four nested loop counters of the byte index, each in its range, and the sampled cell
is one of the run's. -/
def Obligations.ScanIndicesAreTheFourLoops : Prop :=
  ∀ G : Nat,
    (∀ p, p < 512 * G * G →
      ((scanIndex G p).vi < G ∧ (scanIndex G p).vj < 32 ∧ (scanIndex G p).hi < G ∧ (scanIndex G p).hj < 16)
      ∧ p = (((scanIndex G p).vi * 32 + (scanIndex G p).vj) * G + (scanIndex G p).hi) * 16 + (scanIndex G p).hj
      ∧ cellAddr G (scanIndex G p) < G * G)
    ∧ (∀ vi vj hi hj, vi < G → vj < 32 → hi < G → hj < 16 →
      scanIndex G (((vi * 32 + vj) * G + hi) * 16 + hj) = { vi := vi, vj := vj, hi := hi, hj := hj })

/-- From R188: the image-level statement (the per-pixel frame and the orientation are the spec's own readings, log 16; a
cell that holds 3, which no run has, shows as 3: the model's, log 23). Pixel (X, Y), counted from the top left, is index 0
on the 1-pixel ring of its cell and the cell's value inside, and is stored in the nibble R188 names. -/
def Obligations.PixelDataIsTheFramedImage : Prop :=
  ∀ (s : State) (X Y : Nat), cellsWritten s.grid (gridG s) → X < imageSide (gridG s) → Y < imageSide (gridG s) →
    ∃ b : Byte,
      encByte s (74 + (imageSide (gridG s) - 1 - Y) * rowBytes (gridG s) + X / 2) = some b
      ∧ ((X % 32 = 0 ∨ X % 32 = 31 ∨ Y % 32 = 0 ∨ Y % 32 = 31) →
          (if X % 2 = 0 then b.toNat / 16 else b.toNat % 16) = 0)
      ∧ (¬(X % 32 = 0 ∨ X % 32 = 31 ∨ Y % 32 = 0 ∨ Y % 32 = 31) →
          ∀ v, s.grid.read (Y / 32 * gridG s + X / 32) = some v →
            (if X % 2 = 0 then b.toNat / 16 else b.toNat % 16) = v.toNat)

/-- The file is a function of the snapshot alone (R202: "Deterministic, pure function of the model"): two states that agree on
configuration and grid have the same byte at every offset, whatever else differs. -/
def Obligations.FileIsAFunctionOfTheSnapshot : Prop :=
  ∀ (s t : State) (n : Nat), sameSnapshot s t → streamByte t n = streamByte s n

/-! ## The host's contract -/

/-- R112: construct reports the first failing condition of its list, and otherwise returns the model with the values given. -/
def Obligations.ConstructChecksInOrder : Prop :=
  ∀ (c0 c1 c2 size : Int) (prm pat : List (List Int)),
    let r : RawModel := { colors := [c0, c1, c2], gridSize := size, parameter := prm, pattern := pat }
    let square := fun m : List (List Int) => (m.length : Int) = size ∧ ∀ row ∈ m, (row.length : Int) = size
    let within := fun (top : Int) (m : List (List Int)) => ∀ row ∈ m, ∀ v ∈ row, 0 ≤ v ∧ v ≤ top
    let colour := fun c : Int => 0 ≤ c ∧ c ≤ 0xFFFFFF
    (size ≤ 0 → construct r = .error .gridSizeNotPositive)
    ∧ (0 < size → ¬(square prm ∧ square pat) → construct r = .error .matrixShape)
    ∧ (0 < size → square prm → square pat → ¬within 1 prm → construct r = .error .parameterDomain)
    ∧ (0 < size → square prm → square pat → within 1 prm → ¬within 2 pat → construct r = .error .patternDomain)
    ∧ (0 < size → square prm → square pat → within 1 prm → within 2 pat →
        ¬(colour c0 ∧ colour c1 ∧ colour c2) → construct r = .error .colorRange)
    ∧ (0 < size → square prm → square pat → within 1 prm → within 2 pat → colour c0 ∧ colour c1 ∧ colour c2 →
        ∃ m : GridModel, construct r = .ok m ∧ m.valid = true ∧ (m.gridSize : Int) = size
          ∧ (m.color0 : Int) = c0 ∧ (m.color1 : Int) = c1 ∧ (m.color2 : Int) = c2
          ∧ m.parameter.map (fun row => row.map Int.ofNat) = prm
          ∧ m.pattern.map (fun row => row.map Int.ofNat) = pat)

/-- R113 and R114, with R115: mask() multiplies cell by cell, so a cell is 0 where the parameter is 0 and unchanged where it
is 1; the result is valid, and masking it again changes nothing. -/
def Obligations.MaskKeepsOrZeroesEachCell : Prop :=
  ∀ m : GridModel, m.valid = true →
    ∃ k : GridModel, mask m = some k ∧ k.valid = true ∧ mask k = some k
      ∧ k = { m with pattern := k.pattern }
      ∧ ∀ i j, i < m.gridSize → j < m.gridSize →
        ∃ v q, entry m.pattern i j = some v ∧ entry m.parameter i j = some q
          ∧ entry k.pattern i j = some (v * q)
          ∧ (q = 0 → entry k.pattern i j = some 0) ∧ (q = 1 → entry k.pattern i j = some v)

/-- From R118: the loading sequence (in the order the model chooses, log 19), run while STATE is not BUSY, leaves the model's
colours and size in the registers and cell `(i, j)` at address `i*G + j`, and changes nothing else. -/
def Obligations.LoadingPutsTheModelIntoTheBlock : Prop :=
  ∀ (s : State) (m : GridModel), s.cfg.wf = true → m.valid = true → m.gridSize ≤ s.cfg.maxGrid → s.state ≠ .busy →
    s.inputs = (loadOps m).map Input.host →
    ∃ g : Grid,
      runSteps (loadOps m).length s = .next (loadedWith s m g)
      ∧ (∀ i j, i < m.gridSize → j < m.gridSize →
          ∃ v, entry m.pattern i j = some v ∧ g.read (i * m.gridSize + j) = some (BitVec.ofNat 2 v))
      ∧ ∀ a, m.gridSize * m.gridSize ≤ a → g.read a = s.grid.read a

/-- End to end, from R117, R118, R142 and R188: whatever the host is given, if it has a program for it (constructed, masked
once, not above MAX_GRID), then from any state that is not BUSY with a ready sink that program and the drained run end in
DONE and give the sink one complete file: every byte is that of the loaded state, whose registers hold the colours and the
size given, and every pixel is the framed, masked pattern (with the model's choices of logs 3, 5, 19 and 26, and the spec's
readings of log 16). -/
def Obligations.HostProgramProducesTheImage : Prop :=
  ∀ (s : State) (r : RawModel) (program : List Input), s.cfg.wf = true → s.state ≠ .busy → s.outReady = true →
    encodeProgram s.cfg r = .ok program → s.inputs = program →
    ∃ (m : GridModel) (g : Grid) (k : Nat) (run : List OutByte),
      construct r = .ok m
      ∧ run.length = 74 + 512 * m.gridSize * m.gridSize
      ∧ runSteps k s =
          .next { loadedWith s m g with state := .done, phase := .none, errcode := .none, errinfo := 0,
                                        pc := BitVec.ofNat 32 run.length, out := s.out ++ run }
      ∧ (∀ n, n < run.length → run[n]? = streamByte (loadedWith s m g) n)
      ∧ (∀ n o, run[n]? = some o → (o.last = true ↔ n + 1 = run.length))
      ∧ ∀ X Y, X < 32 * m.gridSize → Y < 32 * m.gridSize →
          ∃ o v q, run[74 + (32 * m.gridSize - 1 - Y) * (16 * m.gridSize) + X / 2]? = some o
            ∧ entry m.pattern (Y / 32) (X / 32) = some v ∧ entry m.parameter (Y / 32) (X / 32) = some q
            ∧ (if X % 2 = 0 then o.data.toNat / 16 else o.data.toNat % 16)
                = if X % 32 = 0 ∨ X % 32 = 31 ∨ Y % 32 = 0 ∨ Y % 32 = 31 then 0 else v * q

/-- From R118 and R142, for the block alone: "defined for the block (it encodes what it is given)" (U4). Loading any valid model,
masked or not, START and the drained run end in DONE with one complete file of the loaded state, whose pixels are the
pattern as loaded (with the model's choices of logs 3, 5 and 19, and the spec's readings of log 16). -/
def Obligations.LoadedModelIsEncodedAsGiven : Prop :=
  ∀ (s : State) (m : GridModel), s.cfg.wf = true → m.valid = true → m.gridSize ≤ s.cfg.maxGrid → s.state ≠ .busy →
    s.outReady = true → s.inputs = loadAndStart m →
    ∃ (g : Grid) (k : Nat) (run : List OutByte),
      run.length = 74 + 512 * m.gridSize * m.gridSize
      ∧ runSteps k s =
          .next { loadedWith s m g with state := .done, phase := .none, errcode := .none, errinfo := 0,
                                        pc := BitVec.ofNat 32 run.length, out := s.out ++ run }
      ∧ (∀ n, n < run.length → run[n]? = streamByte (loadedWith s m g) n)
      ∧ (∀ n o, run[n]? = some o → (o.last = true ↔ n + 1 = run.length))
      ∧ ∀ X Y, X < 32 * m.gridSize → Y < 32 * m.gridSize →
          ∃ o v, run[74 + (32 * m.gridSize - 1 - Y) * (16 * m.gridSize) + X / 2]? = some o
            ∧ entry m.pattern (Y / 32) (X / 32) = some v
            ∧ (if X % 2 = 0 then o.data.toNat / 16 else o.data.toNat % 16)
                = if X % 32 = 0 ∨ X % 32 = 31 ∨ Y % 32 = 0 ∨ Y % 32 = 31 then 0 else v

/-- From R117: every program of the host is the loading and START of a model constructed from what it was given and masked, with
zero cells where the parameter is 0 (R114). Nothing is sent for what construct refuses (R235), and none for a model above
MAX_GRID (log 26); there is no other way to fail. -/
def Obligations.HostProgramFollowsTheLifecycle : Prop :=
  ∀ (c : Config) (r : RawModel),
    (∀ program, encodeProgram c r = .ok program →
      ∃ m k : GridModel, construct r = .ok m ∧ mask m = some k ∧ k.valid = true ∧ k.gridSize ≤ c.maxGrid
        ∧ program = loadAndStart k
        ∧ ∀ i j, i < k.gridSize → j < k.gridSize → entry k.parameter i j = some 0 → entry k.pattern i j = some 0)
    ∧ (∀ e, construct r = .error e → encodeProgram c r = .error (.invalid e))
    ∧ (∀ m, construct r = .ok m → m.gridSize ≤ c.maxGrid → ∃ program, encodeProgram c r = .ok program)
    ∧ (∀ m, construct r = .ok m → c.maxGrid < m.gridSize → encodeProgram c r = .error .exceedsCapacity)
end

