-- ==== Sys2Proof/Laws/Grid.lean ====
section
/-! SUPPORT. The GRID memory: read after write, the canonical form, and what a written cell list says about its addresses. -/

namespace Sys2Proof.Machine

@[simp] theorem Grid.read_nil (a : Nat) : Grid.read [] a = none := rfl

/-- Read after write to the same cell (R62). -/
@[simp] theorem Grid.read_write_same (g : Grid) (a : Nat) (v : Cell) : (g.write a v).read a = some v := by
  induction g with
  | nil => simp [Grid.write, Grid.read]
  | cons c rest ih =>
    obtain ⟨b, w⟩ := c
    unfold Grid.write
    split
    · simp [Grid.read]
    · split
      · simp [Grid.read]
      · next hne => simp [Grid.read, ih, Ne.symm hne]

/-- A write leaves every other cell alone. -/
theorem Grid.read_write_other (g : Grid) (a b : Nat) (v : Cell) (h : b ≠ a) : (g.write a v).read b = g.read b := by
  induction g with
  | nil => simp [Grid.write, Grid.read, h.symm]
  | cons c rest ih =>
    obtain ⟨x, w⟩ := c
    unfold Grid.write
    split
    · simp [Grid.read, h.symm]
    · split
      · next hx => subst hx; simp [Grid.read, h.symm]
      · simp [Grid.read, ih]

/-- A write of an address above `lo` keeps a list that rises above `lo` rising. -/
theorem Grid.risingFrom_write (g : Grid) (a : Nat) (v : Cell) (lo : Option Nat) (hlo : ∀ l, lo = some l → l < a)
    (h : Grid.risingFrom lo g = true) : Grid.risingFrom lo (g.write a v) = true := by
  induction g generalizing lo with
  | nil => cases lo <;> simp_all [Grid.write, Grid.risingFrom]
  | cons c rest ih =>
    obtain ⟨b, w⟩ := c
    have hrest : Grid.risingFrom (some b) rest = true := by
      cases lo <;> simp_all [Grid.risingFrom]
    unfold Grid.write
    split
    · next hab => cases lo <;> simp_all [Grid.risingFrom]
    · split
      · next hab => subst hab; cases lo <;> simp_all [Grid.risingFrom]
      · next hnlt hne =>
        have step : Grid.risingFrom (some b) (Grid.write rest a v) = true :=
          ih (some b) (fun l hl => by injection hl with hl; omega) hrest
        cases lo <;> simp_all [Grid.risingFrom]

/-- Every write keeps the canonical form of the GRID memory. -/
theorem Grid.wf_write (g : Grid) (a : Nat) (v : Cell) (h : g.wf = true) : (g.write a v).wf = true :=
  Grid.risingFrom_write g a v none (by simp) h

/-- The memory at power-up is in canonical form (R252). -/
theorem Grid.wf_nil : Grid.wf [] = true := rfl

/-- What a write makes readable: the cell itself and what was readable before. -/
theorem Grid.read_write_ne_none (g : Grid) (a b : Nat) (v : Cell) :
    (g.write a v).read b ≠ none ↔ b = a ∨ g.read b ≠ none := by
  by_cases h : b = a
  · subst h; simp
  · simp [Grid.read_write_other g a b v h, h]

/-- A list that rises above `lo` holds no cell up to `lo`. -/
theorem Grid.read_eq_none_of_risingFrom (g : Grid) (lo a : Nat) (h : Grid.risingFrom (some lo) g = true) (ha : a ≤ lo) :
    g.read a = none := by
  induction g generalizing lo with
  | nil => rfl
  | cons c rest ih =>
    obtain ⟨b, w⟩ := c
    simp only [Grid.risingFrom, Bool.and_eq_true, decide_eq_true_eq] at h
    have hb : b ≠ a := by omega
    simp [Grid.read, hb, ih b h.2 (by omega)]

end Sys2Proof.Machine
end

