-- ==== Sys2Proof/Laws/State.lean ====
section
/-! SUPPORT. One lemma per field per named update of State, so that no proof unfolds a record update. -/

namespace Sys2Proof.Machine

variable (s : State) (code : ErrCode) (info : Word) (b : Byte) (last : Bool)

@[simp] theorem setBadcmd_cfg : (setBadcmd s).cfg = s.cfg := rfl
@[simp] theorem setBadcmd_state : (setBadcmd s).state = s.state := rfl
@[simp] theorem setBadcmd_phase : (setBadcmd s).phase = s.phase := rfl
@[simp] theorem setBadcmd_errcode : (setBadcmd s).errcode = s.errcode := rfl
@[simp] theorem setBadcmd_badcmd : (setBadcmd s).badcmd = true := rfl
@[simp] theorem setBadcmd_busywr : (setBadcmd s).busywr = s.busywr := rfl
@[simp] theorem setBadcmd_gridSize : (setBadcmd s).gridSize = s.gridSize := rfl
@[simp] theorem setBadcmd_color0 : (setBadcmd s).color0 = s.color0 := rfl
@[simp] theorem setBadcmd_color1 : (setBadcmd s).color1 = s.color1 := rfl
@[simp] theorem setBadcmd_color2 : (setBadcmd s).color2 = s.color2 := rfl
@[simp] theorem setBadcmd_pc : (setBadcmd s).pc = s.pc := rfl
@[simp] theorem setBadcmd_errinfo : (setBadcmd s).errinfo = s.errinfo := rfl
@[simp] theorem setBadcmd_grid : (setBadcmd s).grid = s.grid := rfl
@[simp] theorem setBadcmd_out : (setBadcmd s).out = s.out := rfl
@[simp] theorem setBadcmd_inputs : (setBadcmd s).inputs = s.inputs := rfl
@[simp] theorem setBadcmd_outReady : (setBadcmd s).outReady = s.outReady := rfl
@[simp] theorem setBadcmd_regRdata : (setBadcmd s).regRdata = s.regRdata := rfl
@[simp] theorem setBadcmd_gridRdata : (setBadcmd s).gridRdata = s.gridRdata := rfl

@[simp] theorem setBusywr_cfg : (setBusywr s).cfg = s.cfg := rfl
@[simp] theorem setBusywr_state : (setBusywr s).state = s.state := rfl
@[simp] theorem setBusywr_phase : (setBusywr s).phase = s.phase := rfl
@[simp] theorem setBusywr_errcode : (setBusywr s).errcode = s.errcode := rfl
@[simp] theorem setBusywr_badcmd : (setBusywr s).badcmd = s.badcmd := rfl
@[simp] theorem setBusywr_busywr : (setBusywr s).busywr = true := rfl
@[simp] theorem setBusywr_gridSize : (setBusywr s).gridSize = s.gridSize := rfl
@[simp] theorem setBusywr_color0 : (setBusywr s).color0 = s.color0 := rfl
@[simp] theorem setBusywr_color1 : (setBusywr s).color1 = s.color1 := rfl
@[simp] theorem setBusywr_color2 : (setBusywr s).color2 = s.color2 := rfl
@[simp] theorem setBusywr_pc : (setBusywr s).pc = s.pc := rfl
@[simp] theorem setBusywr_errinfo : (setBusywr s).errinfo = s.errinfo := rfl
@[simp] theorem setBusywr_grid : (setBusywr s).grid = s.grid := rfl
@[simp] theorem setBusywr_out : (setBusywr s).out = s.out := rfl
@[simp] theorem setBusywr_inputs : (setBusywr s).inputs = s.inputs := rfl
@[simp] theorem setBusywr_outReady : (setBusywr s).outReady = s.outReady := rfl
@[simp] theorem setBusywr_regRdata : (setBusywr s).regRdata = s.regRdata := rfl
@[simp] theorem setBusywr_gridRdata : (setBusywr s).gridRdata = s.gridRdata := rfl

@[simp] theorem clearFlags_cfg : (clearFlags s).cfg = s.cfg := rfl
@[simp] theorem clearFlags_state : (clearFlags s).state = s.state := rfl
@[simp] theorem clearFlags_phase : (clearFlags s).phase = s.phase := rfl
@[simp] theorem clearFlags_errcode : (clearFlags s).errcode = s.errcode := rfl
@[simp] theorem clearFlags_badcmd : (clearFlags s).badcmd = false := rfl
@[simp] theorem clearFlags_busywr : (clearFlags s).busywr = false := rfl
@[simp] theorem clearFlags_gridSize : (clearFlags s).gridSize = s.gridSize := rfl
@[simp] theorem clearFlags_color0 : (clearFlags s).color0 = s.color0 := rfl
@[simp] theorem clearFlags_color1 : (clearFlags s).color1 = s.color1 := rfl
@[simp] theorem clearFlags_color2 : (clearFlags s).color2 = s.color2 := rfl
@[simp] theorem clearFlags_pc : (clearFlags s).pc = s.pc := rfl
@[simp] theorem clearFlags_errinfo : (clearFlags s).errinfo = s.errinfo := rfl
@[simp] theorem clearFlags_grid : (clearFlags s).grid = s.grid := rfl
@[simp] theorem clearFlags_out : (clearFlags s).out = s.out := rfl
@[simp] theorem clearFlags_inputs : (clearFlags s).inputs = s.inputs := rfl
@[simp] theorem clearFlags_outReady : (clearFlags s).outReady = s.outReady := rfl
@[simp] theorem clearFlags_regRdata : (clearFlags s).regRdata = s.regRdata := rfl
@[simp] theorem clearFlags_gridRdata : (clearFlags s).gridRdata = s.gridRdata := rfl

@[simp] theorem forgetRun_cfg : (forgetRun s).cfg = s.cfg := rfl
@[simp] theorem forgetRun_state : (forgetRun s).state = s.state := rfl
@[simp] theorem forgetRun_phase : (forgetRun s).phase = .none := rfl
@[simp] theorem forgetRun_errcode : (forgetRun s).errcode = .none := rfl
@[simp] theorem forgetRun_badcmd : (forgetRun s).badcmd = s.badcmd := rfl
@[simp] theorem forgetRun_busywr : (forgetRun s).busywr = s.busywr := rfl
@[simp] theorem forgetRun_gridSize : (forgetRun s).gridSize = s.gridSize := rfl
@[simp] theorem forgetRun_color0 : (forgetRun s).color0 = s.color0 := rfl
@[simp] theorem forgetRun_color1 : (forgetRun s).color1 = s.color1 := rfl
@[simp] theorem forgetRun_color2 : (forgetRun s).color2 = s.color2 := rfl
@[simp] theorem forgetRun_pc : (forgetRun s).pc = 0 := rfl
@[simp] theorem forgetRun_errinfo : (forgetRun s).errinfo = 0 := rfl
@[simp] theorem forgetRun_grid : (forgetRun s).grid = s.grid := rfl
@[simp] theorem forgetRun_out : (forgetRun s).out = s.out := rfl
@[simp] theorem forgetRun_inputs : (forgetRun s).inputs = s.inputs := rfl
@[simp] theorem forgetRun_outReady : (forgetRun s).outReady = s.outReady := rfl
@[simp] theorem forgetRun_regRdata : (forgetRun s).regRdata = s.regRdata := rfl
@[simp] theorem forgetRun_gridRdata : (forgetRun s).gridRdata = s.gridRdata := rfl

@[simp] theorem raiseError_cfg : (raiseError code info s).cfg = s.cfg := rfl
@[simp] theorem raiseError_state : (raiseError code info s).state = .error := rfl
@[simp] theorem raiseError_phase : (raiseError code info s).phase = .none := rfl
@[simp] theorem raiseError_errcode : (raiseError code info s).errcode = code := rfl
@[simp] theorem raiseError_badcmd : (raiseError code info s).badcmd = s.badcmd := rfl
@[simp] theorem raiseError_busywr : (raiseError code info s).busywr = s.busywr := rfl
@[simp] theorem raiseError_gridSize : (raiseError code info s).gridSize = s.gridSize := rfl
@[simp] theorem raiseError_color0 : (raiseError code info s).color0 = s.color0 := rfl
@[simp] theorem raiseError_color1 : (raiseError code info s).color1 = s.color1 := rfl
@[simp] theorem raiseError_color2 : (raiseError code info s).color2 = s.color2 := rfl
@[simp] theorem raiseError_pc : (raiseError code info s).pc = s.pc := rfl
@[simp] theorem raiseError_errinfo : (raiseError code info s).errinfo = info := rfl
@[simp] theorem raiseError_grid : (raiseError code info s).grid = s.grid := rfl
@[simp] theorem raiseError_out : (raiseError code info s).out = s.out := rfl
@[simp] theorem raiseError_inputs : (raiseError code info s).inputs = s.inputs := rfl
@[simp] theorem raiseError_outReady : (raiseError code info s).outReady = s.outReady := rfl
@[simp] theorem raiseError_regRdata : (raiseError code info s).regRdata = s.regRdata := rfl
@[simp] theorem raiseError_gridRdata : (raiseError code info s).gridRdata = s.gridRdata := rfl

@[simp] theorem returnToIdle_cfg : (returnToIdle s).cfg = s.cfg := rfl
@[simp] theorem returnToIdle_state : (returnToIdle s).state = .idle := rfl
@[simp] theorem returnToIdle_phase : (returnToIdle s).phase = .none := rfl
@[simp] theorem returnToIdle_errcode : (returnToIdle s).errcode = .none := rfl
@[simp] theorem returnToIdle_badcmd : (returnToIdle s).badcmd = false := rfl
@[simp] theorem returnToIdle_busywr : (returnToIdle s).busywr = false := rfl
@[simp] theorem returnToIdle_gridSize : (returnToIdle s).gridSize = s.gridSize := rfl
@[simp] theorem returnToIdle_color0 : (returnToIdle s).color0 = s.color0 := rfl
@[simp] theorem returnToIdle_color1 : (returnToIdle s).color1 = s.color1 := rfl
@[simp] theorem returnToIdle_color2 : (returnToIdle s).color2 = s.color2 := rfl
@[simp] theorem returnToIdle_pc : (returnToIdle s).pc = 0 := rfl
@[simp] theorem returnToIdle_errinfo : (returnToIdle s).errinfo = 0 := rfl
@[simp] theorem returnToIdle_grid : (returnToIdle s).grid = s.grid := rfl
@[simp] theorem returnToIdle_out : (returnToIdle s).out = s.out := rfl
@[simp] theorem returnToIdle_inputs : (returnToIdle s).inputs = s.inputs := rfl
@[simp] theorem returnToIdle_outReady : (returnToIdle s).outReady = s.outReady := rfl
@[simp] theorem returnToIdle_regRdata : (returnToIdle s).regRdata = s.regRdata := rfl
@[simp] theorem returnToIdle_gridRdata : (returnToIdle s).gridRdata = s.gridRdata := rfl

@[simp] theorem resetStep_cfg : (resetStep s).cfg = s.cfg := rfl
@[simp] theorem resetStep_state : (resetStep s).state = .idle := rfl
@[simp] theorem resetStep_phase : (resetStep s).phase = .none := rfl
@[simp] theorem resetStep_errcode : (resetStep s).errcode = .none := rfl
@[simp] theorem resetStep_badcmd : (resetStep s).badcmd = false := rfl
@[simp] theorem resetStep_busywr : (resetStep s).busywr = false := rfl
@[simp] theorem resetStep_gridSize : (resetStep s).gridSize = 0 := rfl
@[simp] theorem resetStep_color0 : (resetStep s).color0 = 0 := rfl
@[simp] theorem resetStep_color1 : (resetStep s).color1 = 0 := rfl
@[simp] theorem resetStep_color2 : (resetStep s).color2 = 0 := rfl
@[simp] theorem resetStep_pc : (resetStep s).pc = 0 := rfl
@[simp] theorem resetStep_errinfo : (resetStep s).errinfo = 0 := rfl
@[simp] theorem resetStep_grid : (resetStep s).grid = s.grid := rfl
@[simp] theorem resetStep_out : (resetStep s).out = s.out := rfl
@[simp] theorem resetStep_inputs : (resetStep s).inputs = s.inputs := rfl
@[simp] theorem resetStep_outReady : (resetStep s).outReady = s.outReady := rfl
@[simp] theorem resetStep_regRdata : (resetStep s).regRdata = s.regRdata := rfl
@[simp] theorem resetStep_gridRdata : (resetStep s).gridRdata = s.gridRdata := rfl

@[simp] theorem emit_cfg : (emit b last s).cfg = s.cfg := rfl
@[simp] theorem emit_state : (emit b last s).state = s.state := rfl
@[simp] theorem emit_phase : (emit b last s).phase = s.phase := rfl
@[simp] theorem emit_errcode : (emit b last s).errcode = s.errcode := rfl
@[simp] theorem emit_badcmd : (emit b last s).badcmd = s.badcmd := rfl
@[simp] theorem emit_busywr : (emit b last s).busywr = s.busywr := rfl
@[simp] theorem emit_gridSize : (emit b last s).gridSize = s.gridSize := rfl
@[simp] theorem emit_color0 : (emit b last s).color0 = s.color0 := rfl
@[simp] theorem emit_color1 : (emit b last s).color1 = s.color1 := rfl
@[simp] theorem emit_color2 : (emit b last s).color2 = s.color2 := rfl
@[simp] theorem emit_pc : (emit b last s).pc = s.pc := rfl
@[simp] theorem emit_errinfo : (emit b last s).errinfo = s.errinfo := rfl
@[simp] theorem emit_grid : (emit b last s).grid = s.grid := rfl
@[simp] theorem emit_out : (emit b last s).out = s.out ++ [{ data := b, last := last }] := rfl
@[simp] theorem emit_inputs : (emit b last s).inputs = s.inputs := rfl
@[simp] theorem emit_outReady : (emit b last s).outReady = s.outReady := rfl
@[simp] theorem emit_regRdata : (emit b last s).regRdata = s.regRdata := rfl
@[simp] theorem emit_gridRdata : (emit b last s).gridRdata = s.gridRdata := rfl

/-- `advance` moves `pc` by one in both of its cases (R203). -/
@[simp] theorem advance_pc : (advance s).pc = s.pc + 1 := by unfold advance; split <;> rfl

@[simp] theorem advance_cfg : (advance s).cfg = s.cfg := by unfold advance; split <;> rfl
@[simp] theorem advance_errcode : (advance s).errcode = s.errcode := by unfold advance; split <;> rfl
@[simp] theorem advance_badcmd : (advance s).badcmd = s.badcmd := by unfold advance; split <;> rfl
@[simp] theorem advance_busywr : (advance s).busywr = s.busywr := by unfold advance; split <;> rfl
@[simp] theorem advance_gridSize : (advance s).gridSize = s.gridSize := by unfold advance; split <;> rfl
@[simp] theorem advance_color0 : (advance s).color0 = s.color0 := by unfold advance; split <;> rfl
@[simp] theorem advance_color1 : (advance s).color1 = s.color1 := by unfold advance; split <;> rfl
@[simp] theorem advance_color2 : (advance s).color2 = s.color2 := by unfold advance; split <;> rfl
@[simp] theorem advance_errinfo : (advance s).errinfo = s.errinfo := by unfold advance; split <;> rfl
@[simp] theorem advance_grid : (advance s).grid = s.grid := by unfold advance; split <;> rfl
@[simp] theorem advance_out : (advance s).out = s.out := by unfold advance; split <;> rfl
@[simp] theorem advance_inputs : (advance s).inputs = s.inputs := by unfold advance; split <;> rfl
@[simp] theorem advance_outReady : (advance s).outReady = s.outReady := by unfold advance; split <;> rfl
@[simp] theorem advance_regRdata : (advance s).regRdata = s.regRdata := by unfold advance; split <;> rfl
@[simp] theorem advance_gridRdata : (advance s).gridRdata = s.gridRdata := by unfold advance; split <;> rfl

/-- `advance` after the last byte of the file: DONE (R203). -/
theorem advance_last (h : s.pc.toNat = fileSize (gridG s) - 1) :
    advance s = { s with pc := s.pc + 1, state := .done, phase := .none } := if_pos h

/-- `advance` after any other byte: the phase of the next one (R203, R25). -/
theorem advance_more (h : s.pc.toNat ≠ fileSize (gridG s) - 1) :
    advance s = { s with pc := s.pc + 1, phase := phaseOf (s.pc.toNat + 1) } := if_neg h

@[simp] theorem gridG_setBadcmd : gridG (setBadcmd s) = gridG s := rfl
@[simp] theorem gridG_setBusywr : gridG (setBusywr s) = gridG s := rfl
@[simp] theorem gridG_forgetRun : gridG (forgetRun s) = gridG s := rfl
@[simp] theorem gridG_raiseError : gridG (raiseError code info s) = gridG s := rfl
@[simp] theorem gridG_emit : gridG (emit b last s) = gridG s := rfl
@[simp] theorem gridG_advance : gridG (advance s) = gridG s := by unfold gridG; simp

end Sys2Proof.Machine
end

