-- ==== Sys2Proof/Laws/Ops.lean ====
section
/-! SUPPORT. What each shared operation can do, said once: the transfer (R203), the cell scan (R180), the sequencing of
results. -/

namespace Sys2Proof.Machine

/-- One transfer as a record update: the byte with its mark, `pc` one further, DONE after the last byte, else the next byte's
phase (R203). -/
theorem transferByte_eq (b : Byte) (s : State) :
    transferByte b s =
      if s.pc.toNat = fileSize (gridG s) - 1 then
        { s with out := s.out ++ [{ data := b, last := true }], pc := s.pc + 1, state := .done, phase := .none }
      else
        { s with out := s.out ++ [{ data := b, last := false }], pc := s.pc + 1, phase := phaseOf (s.pc.toNat + 1) } := by
  unfold transferByte advance gridG
  by_cases h : s.pc.toNat = fileSize s.gridSize.toNat - 1 <;> simp [h, emit]

/-- Everything a byte-producing phase can answer with a next state: a transfer of its byte, or no step. -/
theorem transferIn_next {p : Phase} {byte : Except Result Byte} {s t : State} (hbyte : ∀ u, byte ≠ .error (.next u))
    (h : transferIn p byte s = .next t) :
    (∃ b, byte = .ok b ∧ s.state = .busy ∧ s.phase = p ∧ s.outReady = true ∧ t = transferByte b s)
      ∨ (¬(s.state = .busy ∧ s.phase = p ∧ s.outReady = true) ∧ t = s) := by
  unfold transferIn at h
  split at h
  · next hen =>
    left
    cases byte with
    | ok b =>
      simp only [Host.Outcome.next.injEq] at h
      exact ⟨b, rfl, hen.1, hen.2.1, hen.2.2, h.symm⟩
    | error r => simp only at h; exact absurd (by rw [h]) (hbyte t)
  · next hen =>
    right
    simp only [Host.Outcome.next.injEq] at h
    exact ⟨hen, h.symm⟩

/-- A byte-producing phase whose step is enabled hands over its byte (R203). -/
theorem transferIn_enabled {p : Phase} {b : Byte} {s : State} (hs : s.state = .busy) (hp : s.phase = p)
    (hr : s.outReady = true) : transferIn p (.ok b) s = .next (transferByte b s) := by
  simp [transferIn, hs, hp, hr]

theorem tableByte_ne_next (o : Option Byte) (u : State) : tableByte o ≠ .error (.next u) := by
  cases o <;> simp [tableByte]

theorem fileHeaderByte_ne_next (s : State) (n : Nat) (u : State) : fileHeaderByte s n ≠ .error (.next u) :=
  tableByte_ne_next _ u

theorem infoHeaderByte_ne_next (s : State) (n : Nat) (u : State) : infoHeaderByte s n ≠ .error (.next u) := by
  unfold infoHeaderByte; split <;> exact tableByte_ne_next _ u

theorem paletteByte_ne_next (s : State) (n : Nat) (u : State) : paletteByte s n ≠ .error (.next u) := by
  unfold paletteByte; split <;> exact tableByte_ne_next _ u

theorem pixelByte_ne_next (s : State) (n : Nat) (u : State) : pixelByte s n ≠ .error (.next u) := by
  unfold pixelByte
  split
  · exact tableByte_ne_next _ u
  · dsimp only; split <;> simp

/-- `firstCell` finds nothing exactly when no cell below the limit satisfies the test. -/
theorem firstCell_eq_none {p : Option Cell → Bool} {g : Grid} {n : Nat} :
    firstCell p g n = none ↔ ∀ a, a < n → p (g.read a) = false := by
  simp [firstCell, List.find?_eq_none]

/-- `firstCell` finds the lowest cell below the limit that satisfies the test. -/
theorem firstCell_eq_some {p : Option Cell → Bool} {g : Grid} {n a : Nat} :
    firstCell p g n = some a ↔ a < n ∧ p (g.read a) = true ∧ ∀ b, b < a → p (g.read b) = false := by
  simp only [firstCell, List.find?_range_eq_some]
  constructor
  · rintro ⟨h1, h2, h3⟩
    exact ⟨by simpa using h2, h1, fun b hb => by simpa using h3 b hb⟩
  · rintro ⟨h1, h2, h3⟩
    exact ⟨h2, by simpa using h1, fun b hb => by simp [h3 b hb]⟩

/-- A sequence answers a next state exactly when both parts do. -/
theorem andThen_next {r : Result} {f : State → Result} {t : State} :
    andThen r f = .next t ↔ ∃ s, r = .next s ∧ f s = .next t := by
  cases r <;> simp [andThen]

end Sys2Proof.Machine
end

