-- ==== Sys2Proof/Laws/Exec.lean ====
section
/-! SUPPORT. What the meanings can do, said once: the inversion of START, CLEAR, VALIDATE and the four byte-producing
phases, and of `exec` as a whole, which every invariant cites instead of unfolding a meaning. -/

namespace Sys2Proof.Machine

theorem tableByte_ok {o : Option Byte} {b : Byte} (h : tableByte o = .ok b) : o = some b := by
  cases o <;> simp_all [tableByte]

/-- The FILE_HEADER byte exists at offsets 0..13 only (R151). -/
theorem fileHeaderByte_ok {s : State} {n : Nat} {b : Byte} (h : fileHeaderByte s n = .ok b) :
    n < 14 ∧ (fileHeaderBytes s.cfg (gridG s))[n]? = some b := by
  have hb := tableByte_ok h
  exact ⟨(List.getElem?_eq_some_iff.mp hb).1, hb⟩

/-- The INFO_HEADER byte exists at offsets 14..25 only (R156). -/
theorem infoHeaderByte_ok {s : State} {n : Nat} {b : Byte} (h : infoHeaderByte s n = .ok b) :
    14 ≤ n ∧ n < 26 ∧ (infoHeaderBytes (gridG s))[n - 14]? = some b := by
  unfold infoHeaderByte at h
  split at h
  · simp [tableByte] at h
  · have hb := tableByte_ok h
    have hlt : n - 14 < 12 := (List.getElem?_eq_some_iff.mp hb).1
    exact ⟨by omega, by omega, hb⟩

/-- The 16 entries are 48 bytes (R172). -/
@[simp] theorem paletteBytes_length (s : State) : (paletteBytes s).length = 48 := by
  simp [paletteBytes, paletteEntryBytes, paletteEntries]

/-- The PALETTE byte exists at offsets 26..73 only (R170). -/
theorem paletteByte_ok {s : State} {n : Nat} {b : Byte} (h : paletteByte s n = .ok b) :
    26 ≤ n ∧ n < 74 ∧ (paletteBytes s)[n - 26]? = some b := by
  unfold paletteByte at h
  split at h
  · simp [tableByte] at h
  · have hb := tableByte_ok h
    have hlt : n - 26 < 48 := by simpa using (List.getElem?_eq_some_iff.mp hb).1
    exact ⟨by omega, by omega, hb⟩

/-- The PIXELS byte exists at offsets 74..FS-1 only, where its cell is written (R181). -/
theorem pixelByte_ok {s : State} {n : Nat} {b : Byte} (h : pixelByte s n = .ok b) :
    74 ≤ n ∧ n < fileSize (gridG s) ∧ pixByte s n = some b := by
  unfold pixelByte at h
  split at h
  · simp [tableByte] at h
  · next hn =>
    refine ⟨by omega, by omega, ?_⟩
    dsimp only at h
    split at h
    · next v hv => simp only [pixByte, hv]; simpa using h
    · simp at h

/-- Everything START can do (R131, R133). -/
theorem execStart_cases (s : State) :
    (s.state = .busy ∧ execStart s = .next (setBadcmd s))
    ∨ (s.state ≠ .busy ∧ ∃ code info, startCheck s = some (code, info)
        ∧ execStart s = .next (raiseError code info (forgetRun s)))
    ∨ (s.state ≠ .busy ∧ startCheck s = none
        ∧ execStart s = .next { forgetRun s with state := .busy, phase := .validate }) := by
  by_cases h : s.state = .busy
  · exact .inl ⟨h, by simp [execStart, h, commandNotExecuted]⟩
  · cases hc : startCheck s with
    | none => exact .inr (.inr ⟨h, rfl, by simp [execStart, h, hc]⟩)
    | some e => exact .inr (.inl ⟨h, e.1, e.2, rfl, by simp [execStart, h, hc]⟩)

/-- The codes the checks of START give (R131). -/
theorem startCheck_code {s : State} {code : ErrCode} {info : Word} (h : startCheck s = some (code, info)) :
    code = .valGridSize ∨ code = .valColor ∨ code = .encGeometry ∨ code = .encCapacity := by
  unfold startCheck at h
  split at h
  · simp_all
  · split at h
    · simp_all
    · split at h
      · simp_all
      · split at h <;> simp_all

/-- The checks of START pass exactly on an accepted size and colours (R131). -/
theorem startCheck_eq_none {s : State} :
    startCheck s = none ↔ acceptedSize s.cfg (gridG s) = true ∧ firstBadColour s = none := by
  unfold startCheck acceptedSize
  by_cases h0 : gridG s = 0
  · simp [h0]
  · cases hc : firstBadColour s with
    | some k => simp [h0]
    | none =>
      by_cases h1 : 32 * gridG s > maxSide
      · have : ¬ 32 * gridG s ≤ maxSide := by omega
        simp [h0, h1, this]
      · have h1' : 32 * gridG s ≤ maxSide := by omega
        by_cases h2 : gridG s > s.cfg.maxGrid
        · have : ¬ gridG s ≤ s.cfg.maxGrid := by omega
          simp [h0, h1, h2, this]
        · have h2' : gridG s ≤ s.cfg.maxGrid := by omega
          simp [h0, h1, h2, h1', h2']

/-- Everything CLEAR can do (R132, R133). -/
theorem execClear_cases (s : State) :
    (s.state = .busy ∧ execClear s = .next (setBadcmd s))
    ∨ (s.state ≠ .busy ∧ execClear s = .next (returnToIdle s)) := by
  by_cases h : s.state = .busy <;> simp [execClear, h, commandNotExecuted]

/-- Everything VALIDATE can do (R180): no step, a refusal of the first never-written cell, the error of the first cell that
holds 3, or the first byte-producing phase. -/
theorem execValidate_cases (s : State) :
    (¬(s.state = .busy ∧ s.phase = .validate) ∧ execValidate s = .next s)
    ∨ (s.state = .busy ∧ s.phase = .validate
      ∧ ((∃ a, a < gridG s * gridG s ∧ s.grid.read a = none ∧ execValidate s = .refused (.unwrittenCell a))
        ∨ (cellsWritten s.grid (gridG s)
          ∧ ((∃ a, a < gridG s * gridG s ∧ s.grid.read a = some 3 ∧ (∀ b, b < a → s.grid.read b ≠ some 3)
                ∧ execValidate s = .next (raiseError .valCell (BitVec.ofNat 32 a) s))
            ∨ (cellsInDomain s.grid (gridG s) ∧ execValidate s = .next { s with phase := .fileHeader }))))) := by
  by_cases h : s.state = .busy ∧ s.phase = .validate
  · refine .inr ⟨h.1, h.2, ?_⟩
    unfold execValidate
    rw [if_pos h]
    cases hn : firstCell (fun v => v == none) s.grid (gridG s * gridG s) with
    | some a =>
      have := firstCell_eq_some.mp hn
      exact .inl ⟨a, this.1, by simpa using this.2.1, rfl⟩
    | none =>
      refine .inr ⟨fun a ha hr => by simpa [hr] using firstCell_eq_none.mp hn a ha, ?_⟩
      cases h3 : firstCell (fun v => v == some 3) s.grid (gridG s * gridG s) with
      | some a =>
        have := firstCell_eq_some.mp h3
        exact .inl ⟨a, this.1, by simpa using this.2.1, fun b hb => by simpa using this.2.2 b hb, rfl⟩
      | none => exact .inr ⟨fun a ha => by simpa using firstCell_eq_none.mp h3 a ha, rfl⟩
  · exact .inl ⟨h, by simp [execValidate, h]⟩

/-- A transfer step as the byte-producing phases make it (R203): the byte is the phase's at `pc`. -/
structure IsTransfer (s : State) (b : Byte) : Prop where
  busy  : s.state = .busy
  ready : s.outReady = true
  byte  : (s.phase = .fileHeader ∧ fileHeaderByte s s.pc.toNat = .ok b)
    ∨ (s.phase = .infoHeader ∧ infoHeaderByte s s.pc.toNat = .ok b)
    ∨ (s.phase = .palette ∧ paletteByte s s.pc.toNat = .ok b)
    ∨ (s.phase = .pixels ∧ pixelByte s s.pc.toNat = .ok b)

/-- Where a transfer takes place, `pc` is an offset of its phase and of the file (R25). -/
theorem IsTransfer.position {s : State} {b : Byte} (h : IsTransfer s b) :
    s.phase.producesBytes = true ∧ s.phase = phaseOf s.pc.toNat ∧ s.pc.toNat < fileSize (gridG s) := by
  have hfs : 74 ≤ fileSize (gridG s) := by unfold fileSize; omega
  rcases h.byte with ⟨hp, hb⟩ | ⟨hp, hb⟩ | ⟨hp, hb⟩ | ⟨hp, hb⟩
  · have := (fileHeaderByte_ok hb).1
    exact ⟨by simp [hp, Phase.producesBytes], by simp [hp, phaseOf, this], by omega⟩
  · obtain ⟨h1, h2, -⟩ := infoHeaderByte_ok hb
    exact ⟨by simp [hp, Phase.producesBytes], by simp [hp, phaseOf, h2, Nat.not_lt.mpr h1], by omega⟩
  · obtain ⟨h1, h2, -⟩ := paletteByte_ok hb
    have h3 : ¬ s.pc.toNat < 14 := by omega
    exact ⟨by simp [hp, Phase.producesBytes], by simp [hp, phaseOf, h2, h3, Nat.not_lt.mpr h1], by omega⟩
  · obtain ⟨h1, h2, -⟩ := pixelByte_ok hb
    have h3 : ¬ s.pc.toNat < 14 := by omega
    have h4 : ¬ s.pc.toNat < 26 := by omega
    exact ⟨by simp [hp, Phase.producesBytes], by simp [hp, phaseOf, h3, h4, Nat.not_lt.mpr h1], h2⟩

/-- Everything `exec` can answer with a next state, over all instructions. -/
theorem exec_next_cases {i : Instr} {s t : State} (h : exec i s = .next t) :
    (i ≠ .start ∧ i ≠ .clear ∧ t = s)
    ∨ ((i = .start ∨ i = .clear) ∧ s.state = .busy ∧ t = setBadcmd s)
    ∨ (i = .start ∧ s.state ≠ .busy ∧ ∃ code info, startCheck s = some (code, info)
        ∧ t = raiseError code info (forgetRun s))
    ∨ (i = .start ∧ s.state ≠ .busy ∧ startCheck s = none
        ∧ t = { forgetRun s with state := .busy, phase := .validate })
    ∨ (i = .clear ∧ s.state ≠ .busy ∧ t = returnToIdle s)
    ∨ (i = .validate ∧ s.state = .busy ∧ s.phase = .validate ∧ ∃ a, a < gridG s * gridG s ∧ s.grid.read a = some 3
        ∧ t = raiseError .valCell (BitVec.ofNat 32 a) s)
    ∨ (i = .validate ∧ s.state = .busy ∧ s.phase = .validate ∧ cellsWritten s.grid (gridG s)
        ∧ cellsInDomain s.grid (gridG s) ∧ t = { s with phase := .fileHeader })
    ∨ (∃ b, IsTransfer s b ∧ t = transferByte b s) := by
  cases i with
  | nop => exact .inl ⟨by simp, by simp, by simpa [exec, execNop] using h.symm⟩
  | start =>
    rcases execStart_cases s with ⟨hb, e⟩ | ⟨hb, c, k, hc, e⟩ | ⟨hb, hc, e⟩
    · exact .inr (.inl ⟨.inl rfl, hb, by simpa [exec, e] using h.symm⟩)
    · exact .inr (.inr (.inl ⟨rfl, hb, c, k, hc, by simpa [exec, e] using h.symm⟩))
    · exact .inr (.inr (.inr (.inl ⟨rfl, hb, hc, by simpa [exec, e] using h.symm⟩)))
  | clear =>
    rcases execClear_cases s with ⟨hb, e⟩ | ⟨hb, e⟩
    · exact .inr (.inl ⟨.inr rfl, hb, by simpa [exec, e] using h.symm⟩)
    · exact .inr (.inr (.inr (.inr (.inl ⟨rfl, hb, by simpa [exec, e] using h.symm⟩))))
  | validate =>
    rcases execValidate_cases s with ⟨-, e⟩ | ⟨hb, hp, ⟨a, -, -, e⟩ | ⟨hw, ⟨a, ha, h3, -, e⟩ | ⟨hd, e⟩⟩⟩
    · exact .inl ⟨by simp, by simp, by simpa [exec, e] using h.symm⟩
    · simp [exec, e] at h
    · exact .inr (.inr (.inr (.inr (.inr (.inl ⟨rfl, hb, hp, a, ha, h3, by simpa [exec, e] using h.symm⟩)))))
    · exact .inr (.inr (.inr (.inr (.inr (.inr (.inl ⟨rfl, hb, hp, hw, hd, by simpa [exec, e] using h.symm⟩))))))
  | fileHeader =>
    rcases transferIn_next (fileHeaderByte_ne_next s _) h with ⟨b, hbyte, hb, hp, hr, e⟩ | ⟨-, e⟩
    · exact .inr (.inr (.inr (.inr (.inr (.inr (.inr ⟨b, ⟨hb, hr, .inl ⟨hp, hbyte⟩⟩, e⟩))))))
    · exact .inl ⟨by simp, by simp, e⟩
  | infoHeader =>
    rcases transferIn_next (infoHeaderByte_ne_next s _) h with ⟨b, hbyte, hb, hp, hr, e⟩ | ⟨-, e⟩
    · exact .inr (.inr (.inr (.inr (.inr (.inr (.inr ⟨b, ⟨hb, hr, .inr (.inl ⟨hp, hbyte⟩)⟩, e⟩))))))
    · exact .inl ⟨by simp, by simp, e⟩
  | palette =>
    rcases transferIn_next (paletteByte_ne_next s _) h with ⟨b, hbyte, hb, hp, hr, e⟩ | ⟨-, e⟩
    · exact .inr (.inr (.inr (.inr (.inr (.inr (.inr ⟨b, ⟨hb, hr, .inr (.inr (.inl ⟨hp, hbyte⟩))⟩, e⟩))))))
    · exact .inl ⟨by simp, by simp, e⟩
  | pixels =>
    rcases transferIn_next (pixelByte_ne_next s _) h with ⟨b, hbyte, hb, hp, hr, e⟩ | ⟨-, e⟩
    · exact .inr (.inr (.inr (.inr (.inr (.inr (.inr ⟨b, ⟨hb, hr, .inr (.inr (.inr ⟨hp, hbyte⟩))⟩, e⟩))))))
    · exact .inl ⟨by simp, by simp, e⟩

end Sys2Proof.Machine
end

