-- ==== Sys2Proof/Laws/PerInstr.lean ====
section
/-! SUPPORT. One lemma per constructor: its encoding is the code of its row (R82, R83), the decoder reads it back, and the table
word of its row decodes to it. -/

namespace Sys2Proof.Laws.RoundTrip

/-- The bits of the row and its number in the opcode table (log 10). -/
def tableWord (i : Instr) : Nat × Nat :=
  match encode i with
  | .cmd opcode => (32, opcode.toNat)
  | .phase code => (8, code.toNat)

/-- The instruction is well formed, its code decodes to it, and so does its row's number in the opcode table. -/
def Statement (i : Instr) : Prop :=
  Instr.wf i = true ∧ decode (encode i) = .ok i ∧ decodeTableWord (tableWord i).1 (tableWord i).2 = some i

theorem nop : Statement .nop := by unfold Statement; decide
theorem start : Statement .start := by unfold Statement; decide
theorem clear : Statement .clear := by unfold Statement; decide
theorem validate : Statement .validate := by unfold Statement; decide
theorem fileHeader : Statement .fileHeader := by unfold Statement; decide
theorem infoHeader : Statement .infoHeader := by unfold Statement; decide
theorem palette : Statement .palette := by unfold Statement; decide
theorem pixels : Statement .pixels := by unfold Statement; decide

end Sys2Proof.Laws.RoundTrip
end

