-- ==== Sys2Proof/Laws/Step.lean ====
section
/-! SUPPORT. What a host transaction, the engine's turn, a clock edge and a step can do, said once. -/

namespace Sys2Proof.Machine

/-- The engine's turn: no change, or the meaning of the instruction its PHASE code decodes to (R83). -/
theorem engineTurn_next {s t : State} (h : engineTurn s = .next t) :
    t = s ∨ (s.state = .busy ∧ ∃ i, decodePhase s.phase.code = .ok i ∧ exec i s = .next t) := by
  unfold engineTurn at h
  split at h
  · next hb =>
    split at h
    · next i hi => exact .inr ⟨hb, i, hi, h⟩
    · exact .inl (by simpa using h.symm)
  · exact .inl (by simpa using h.symm)

/-- The register a WR stores into (R135), by its offset, as an update of the state. -/
def storesConfig (o : RegOffset) (d : Word) (s t : State) : Prop :=
  (o = 0x008#12 ∧ t = { s with gridSize := d }) ∨ (o = 0x00C#12 ∧ t = { s with color0 := d })
    ∨ (o = 0x010#12 ∧ t = { s with color1 := d }) ∨ (o = 0x014#12 ∧ t = { s with color2 := d })

theorem writeConfig_next {store : State → State} {s t : State} (h : writeConfig store s = .next t) :
    (s.state = .busy ∧ t = setBusywr s) ∨ (s.state ≠ .busy ∧ t = store s) := by
  unfold writeConfig at h
  split at h
  · next hb => exact .inl ⟨hb, by simpa using h.symm⟩
  · next hb => exact .inr ⟨hb, by simpa using h.symm⟩

/-- Everything WR can do (R134): a command, a command that is not executed, a dropped or made configuration write, nothing. -/
theorem hostWr_next {o : RegOffset} {d : Word} {s t : State} (h : hostWr o d s = .next t) :
    (o = 0x000#12 ∧ ∃ i, decodeCmd d = .ok i ∧ exec i s = .next t)
    ∨ (o = 0x000#12 ∧ decodeCmd d = .error (.reservedCommand d) ∧ t = setBadcmd s)
    ∨ (isConfigOffset o ∧ s.state = .busy ∧ t = setBusywr s)
    ∨ (isConfigOffset o ∧ s.state ≠ .busy ∧ storesConfig o d s t)
    ∨ (o ≠ 0x000#12 ∧ ¬isConfigOffset o ∧ t = s) := by
  unfold hostWr at h
  split at h
  · next ho =>
    unfold writeCmd at h
    cases hd : decodeCmd d with
    | ok i => exact .inl ⟨ho, i, rfl, by simpa [hd] using h⟩
    | error e =>
      have he : e = .reservedCommand d := by
        unfold decodeCmd at hd
        split at hd
        · cases hd
        · split at hd
          · cases hd
          · split at hd
            · cases hd
            · injection hd with hd; exact hd.symm
      subst he
      exact .inr (.inl ⟨ho, rfl, by simpa [hd, commandNotExecuted] using h.symm⟩)
  · split at h
    · next ho =>
      rcases writeConfig_next h with ⟨hb, e⟩ | ⟨hb, e⟩
      · exact .inr (.inr (.inl ⟨.inl ho, hb, e⟩))
      · exact .inr (.inr (.inr (.inl ⟨.inl ho, hb, .inl ⟨ho, e⟩⟩)))
    · split at h
      · next ho =>
        rcases writeConfig_next h with ⟨hb, e⟩ | ⟨hb, e⟩
        · exact .inr (.inr (.inl ⟨.inr (.inl ho), hb, e⟩))
        · exact .inr (.inr (.inr (.inl ⟨.inr (.inl ho), hb, .inr (.inl ⟨ho, e⟩)⟩)))
      · split at h
        · next ho =>
          rcases writeConfig_next h with ⟨hb, e⟩ | ⟨hb, e⟩
          · exact .inr (.inr (.inl ⟨.inr (.inr (.inl ho)), hb, e⟩))
          · exact .inr (.inr (.inr (.inl ⟨.inr (.inr (.inl ho)), hb, .inr (.inr (.inl ⟨ho, e⟩))⟩)))
        · split at h
          · next ho =>
            rcases writeConfig_next h with ⟨hb, e⟩ | ⟨hb, e⟩
            · exact .inr (.inr (.inl ⟨.inr (.inr (.inr ho)), hb, e⟩))
            · exact .inr (.inr (.inr (.inl ⟨.inr (.inr (.inr ho)), hb, .inr (.inr (.inr ⟨ho, e⟩))⟩)))
          · next h0 h8 hc h10 h14 =>
            refine .inr (.inr (.inr (.inr ⟨h0, ?_, by simpa using h.symm⟩)))
            simp [isConfigOffset, h8, hc, h10, h14]

/-- Everything GW can do (R139). -/
theorem hostGw_next {a : GridAddr} {v : Cell} {s t : State} (h : hostGw a v s = .next t) :
    (s.state = .busy ∧ t = setBusywr s)
    ∨ (s.state ≠ .busy ∧ a.toNat < cellCount s.cfg ∧ t = { s with grid := s.grid.write a.toNat v })
    ∨ (s.state ≠ .busy ∧ cellCount s.cfg ≤ a.toNat ∧ t = s) := by
  unfold hostGw at h
  split at h
  · next hb => exact .inl ⟨hb, by simpa using h.symm⟩
  · next hb =>
    split at h
    · next ha => exact .inr (.inl ⟨hb, ha, by simpa using h.symm⟩)
    · next ha => exact .inr (.inr ⟨hb, by omega, by simpa using h.symm⟩)

/-- RD changes the read data port and nothing else (R59, R136). -/
theorem hostRd_next {b s t : State} {o : RegOffset} (h : hostRd b o s = .next t) :
    t = { s with regRdata := regValue b o } := by
  simpa [hostRd] using h.symm

/-- GR, where it answers, changes the read data port and nothing else (R59, R140). -/
theorem hostGr_next {b s t : State} {a : GridAddr} (h : hostGr b a s = .next t) :
    ∃ v, t = { s with gridRdata := v } := by
  unfold hostGr at h
  split at h
  · split at h
    · next v _ => exact ⟨v, by simpa using h.symm⟩
    · cases h
  · exact ⟨0, by simpa using h.symm⟩

/-- A clock edge: the reset step, or the GRID access, the REG access and the engine's step in that order (R68). -/
theorem clockEdge_next {p : Pins} {s t : State} (h : clockEdge p s = .next t) :
    (p.rst = true ∧ t = resetStep { s with outReady := p.outReady })
    ∨ (p.rst = false ∧ p.wf = true ∧ ∃ s1 s2,
        edgeGrid p { s with outReady := p.outReady } { s with outReady := p.outReady } = .next s1
        ∧ edgeReg p { s with outReady := p.outReady } s1 = .next s2
        ∧ edgeEngine { s with outReady := p.outReady } s2 = .next t) := by
  unfold clockEdge at h
  dsimp only at h
  split at h
  · next hr => exact .inl ⟨hr, by simpa using h.symm⟩
  · next hr =>
    split at h
    · next hw =>
      obtain ⟨s1, h1, h2⟩ := andThen_next.mp h
      obtain ⟨s2, h2, h3⟩ := andThen_next.mp h2
      exact .inr ⟨by simpa using hr, hw, s1, s2, h1, h2, h3⟩
    · cases h

/-- A step: the engine's turn when no input is left, else the step of the first input on the state without it (R14; log 3). -/
theorem step_next_cases {s t : State} (h : step s = .next t) :
    (s.inputs = [] ∧ engineTurn s = .next t)
    ∨ ∃ i rest, s.inputs = i :: rest ∧ inputStep i { s with inputs := rest } = .next t := by
  unfold step at h
  split at h
  · next hi => exact .inl ⟨hi, h⟩
  · next i rest hi => exact .inr ⟨i, rest, hi, h⟩

@[simp] theorem runSteps_zero (s : State) : runSteps 0 s = .next s := rfl

theorem runSteps_succ (k : Nat) (s : State) : runSteps (k + 1) s = andThen (step s) (runSteps k) := rfl

/-- The host's run, one step at a time. -/
theorem run_succ (M : Host.Core) (k : Nat) (s : M.State) :
    (∀ t, M.step s = .next t → M.run (k + 1) s = M.run k t)
      ∧ (∀ e, M.step s = .fault e → M.run (k + 1) s = .fault e)
      ∧ (∀ e, M.step s = .refused e → M.run (k + 1) s = .refused e) := by
  refine ⟨fun t h => ?_, fun t h => ?_, fun t h => ?_⟩ <;> rw [Host.Core.run.eq_2, h]

/-- The host's run of the machine is `runSteps`. -/
theorem runSteps_eq_run (k : Nat) (s : State) : Host.Core.run Sys2Proof.core k s = runSteps k s := by
  induction k generalizing s with
  | zero => rfl
  | succ k ih =>
    have hs := run_succ Sys2Proof.core k s
    rw [runSteps_succ]
    cases h : step s with
    | next t => exact (hs.1 t h).trans (ih t)
    | fault e => exact hs.2.1 e h
    | refused e => exact hs.2.2 e h

end Sys2Proof.Machine
end

