-- ==== Sys2Proof/Tests/Slice0.lean ====
section
/-! SUPPORT. The model's own tests: words written out from the spec's encodings, terms each well-formedness check refuses,
single steps of the spec's test vectors (95_test_vectors.md), and for every statement with hypotheses a state that meets
them. -/

namespace Sys2Proof.Tests

open Sys2Proof.Machine

/-- What a result's next state shows; none if there is no next state. -/
def after {α : Type} (f : State → α) : Result → Option α
  | .next t => some (f t)
  | .fault _ => none
  | .refused _ => none

/-- What a result is refused for. -/
def refusal : Result → Option Refusal
  | .next _ => none
  | .fault _ => none
  | .refused r => some r

/-- The start state of 95_test_vectors.md section 3.2: `G = 1`, the colours of E1, `GRID[0] = 1`, IDLE. -/
def loaded : State := { State.reset with gridSize := 1, color1 := 0x00FFFFFF, color2 := 0x00FF0000, grid := [(0, 1)] }

/-- `loaded` in a run, in a phase and at a file offset. -/
def running (p : Phase) (pc : Word) : State := { loaded with state := .busy, phase := p, pc := pc }

/-- The host makes one transaction. -/
def hostDoes (op : HostOp) (s : State) : Result := step { s with inputs := [.host op] }

/-- `G = 2` with four cells, in a run. -/
def running2 (a b c d : Cell) (p : Phase) (pc : Word) : State :=
  { running p pc with gridSize := 2, grid := [(0, a), (1, b), (2, c), (3, d)] }

/-- The grid of vectors V-PX1 to V-PX12 with the colours of V-PL2. -/
def grid1201 : State :=
  { running2 1 2 0 1 .pixels 74 with color0 := 0x00102030, color1 := 0x00A0B0C0, color2 := 0x00010203 }

/-- Every input pin low. -/
def quietPins : Pins :=
  { rst := false, regWe := false, regRe := false, regAddr := 0, regWdata := 0, gridWe := false, gridRe := false,
    gridAddr := 0, gridWdata := 0, outReady := false }

/-! ## Decoding: words written out bit by bit (R82, R83) -/

theorem test_decode_nop : decode (.cmd 0b00000000000000000000000000000000#32) = .ok .nop := by decide
theorem test_decode_start : decode (.cmd 0b00000000000000000000000000000001#32) = .ok .start := by decide
theorem test_decode_clear : decode (.cmd 0b00000000000000000000000000000010#32) = .ok .clear := by decide
theorem test_decode_validate : decode (.phase 0b001#3) = .ok .validate := by decide
theorem test_decode_fileHeader : decode (.phase 0b010#3) = .ok .fileHeader := by decide
theorem test_decode_infoHeader : decode (.phase 0b011#3) = .ok .infoHeader := by decide
theorem test_decode_palette : decode (.phase 0b100#3) = .ok .palette := by decide
theorem test_decode_pixels : decode (.phase 0b101#3) = .ok .pixels := by decide

/-- Reserved opcodes and phases are refused by name (R92). -/
theorem test_decode_reserved :
    decode (.cmd 0b00000000000000000000000100000001#32) = .error (.reservedCommand 0x00000101#32)
      ∧ decode (.cmd 0b00000000000000000000000000000011#32) = .error (.reservedCommand 3#32)
      ∧ decode (.phase 0b000#3) = .error .noPhase ∧ decode (.phase 0b110#3) = .error (.reservedPhase 6#3)
      ∧ decode (.phase 0b111#3) = .error (.reservedPhase 7#3) := by decide

/-! ## Well-formedness: a term each check refuses. (`Instr.wf` has none: no instruction has an operand, R81.) -/

theorem test_wf_maxGrid_zero : Config.wf { Config.default with maxGrid := 0 } = false := by decide
theorem test_wf_maxGrid_2048 : Config.wf { Config.default with maxGrid := 2048 } = false := by decide
theorem test_wf_reg_strobes : Pins.wf { quietPins with regWe := true, regRe := true } = false := by decide
theorem test_wf_grid_strobes : Pins.wf { quietPins with gridWe := true, gridRe := true } = false := by decide
theorem test_wf_input : Input.wf (.edge { quietPins with gridWe := true, gridRe := true }) = false := by decide
theorem test_wf_input_reset : Input.wf (.edge { quietPins with rst := true, regWe := true, regRe := true }) = true := by decide
theorem test_wf_grid_order : Grid.wf [(3, 1), (3, 0)] = false ∧ Grid.wf [(4, 1), (3, 0)] = false := by decide
theorem test_wf_model :
    GridModel.valid { color0 := 0, color1 := 0, color2 := 0, gridSize := 1, parameter := [[1]], pattern := [[3]] } = false := by
  decide

/-! ## Commands (sections 3.2 and 3.3 of the vectors) -/

/-- V-C15: a NOP during a run sets nothing. -/
theorem test_nop_in_run :
    after statusWord (hostDoes (.wr 0x000#12 0#32) (running .fileHeader 0)) = some 0x00000009#32 := by decide

/-- V-C2. -/
theorem test_start_accepted :
    after (fun t => (statusWord t, t.pc)) (hostDoes (.wr 0x000#12 1#32) loaded) = some (0x00000005#32, 0#32) := by decide

/-- V-E4, V-E6, V-E9, V-E10, V-E11, V-E12, V-E13: the checks of START and their order. -/
theorem test_start_checks :
    after (fun t => (statusWord t, t.errinfo))
        (execStart { loaded with color1 := 0x80000000, color2 := 0x01000000 }) = some (0x00000203#32, 1#32)
      ∧ after (fun t => (statusWord t, t.errinfo)) (execStart { loaded with gridSize := 2048 })
        = some (0x00000403#32, 0x800#32)
      ∧ after statusWord (execStart { loaded with gridSize := 0x08000000 }) = some 0x00000403#32
      ∧ after statusWord (execStart { loaded with gridSize := 0, color0 := 0x01000000 }) = some 0x00000103#32
      ∧ after (fun t => (statusWord t, t.errinfo)) (execStart { loaded with gridSize := 5000, color1 := 0x01000000 })
        = some (0x00000203#32, 1#32)
      ∧ after (fun t => (statusWord t, t.errinfo))
          (execStart { loaded with cfg := { Config.default with maxGrid := 16 }, gridSize := 17 })
        = some (0x00000603#32, 17#32)
      ∧ after statusWord (execStart { loaded with cfg := { Config.default with maxGrid := 16 }, gridSize := 4000 })
        = some 0x00000403#32 := by decide

/-- V-C9. -/
theorem test_clear_after_done :
    after (fun t => (statusWord t, t.pc, doneWire t))
        (hostDoes (.wr 0x000#12 2#32) { loaded with state := .done, pc := 586 }) = some (0#32, 0#32, false) := by decide

/-- V-C13, V-C14: START and CLEAR in a run only set BADCMD. -/
theorem test_commands_in_run :
    after statusWord (hostDoes (.wr 0x000#12 1#32) (running .fileHeader 0)) = some 0x00001009#32
      ∧ after statusWord (hostDoes (.wr 0x000#12 2#32) (running .fileHeader 0)) = some 0x00001009#32 := by decide

/-- V-C12, V-C24: a reserved command sets BADCMD, and START leaves it set. -/
theorem test_badcmd :
    after statusWord (hostDoes (.wr 0x000#12 0x00000101#32) loaded) = some 0x00001000#32
      ∧ after statusWord (execStart { loaded with badcmd := true }) = some 0x00001005#32 := by decide

/-! ## Engine steps -/

/-- V-E15: the lowest bad cell. -/
theorem test_validate_lowest :
    after (fun t => (statusWord t, t.errinfo)) (step (running2 2 0 3 3 .validate 0)) = some (0x00000303#32, 2#32) := by decide

/-- V-E16: cells at addresses from `G²` on are not examined. -/
theorem test_validate_bounds :
    after statusWord (step { running .validate 0 with grid := [(0, 1), (1, 3), (2, 3), (3, 3)] })
      = some 0x00000009#32 := by decide

/-- V-HB2: file length 2122 as bytes 2 to 5, with the phase after offset 13. -/
theorem test_fileHeader :
    after (fun t => t.out) (step (running2 2 0 0 2 .fileHeader 3)) = some [{ data := 0x08, last := false }]
      ∧ after statusWord (step (running .fileHeader 13)) = some 0x0000000D#32 := by decide

/-- V-HB6: width and height of the largest image. -/
theorem test_infoHeader :
    after (fun t => t.out) (step { running .infoHeader 18 with gridSize := 2047 }) = some [{ data := 0xE0, last := false }]
      ∧ after (fun t => t.out) (step { running .infoHeader 21 with gridSize := 2047 })
        = some [{ data := 0xFF, last := false }] := by decide

/-- V-PL2: blue, green, red. -/
theorem test_palette :
    after (fun t => t.out) (step { grid1201 with phase := .palette, pc := 26 }) = some [{ data := 0x30, last := false }]
      ∧ after (fun t => t.out) (step { grid1201 with phase := .palette, pc := 34 }) = some [{ data := 0x01, last := false }]
      ∧ after (fun t => t.out) (step { grid1201 with phase := .palette, pc := 35 })
        = some [{ data := 0x00, last := false }] := by decide

/-- V-PX4 to V-PX7, V-PX10: both orientations and all four forms. -/
theorem test_pixels :
    (encByte grid1201 122, encByte grid1201 123, encByte grid1201 137, encByte grid1201 1130, encByte grid1201 2089)
      = (some 0x01, some 0x11, some 0x10, some 0x01, some 0x20) := by decide

/-- V-C8: the last byte. -/
theorem test_pixels_last :
    after (fun t => (t.out, statusWord t, t.pc, doneWire t)) (step (running .pixels 585))
      = some ([{ data := 0x00, last := true }], 0x00000002#32, 586#32, true) := by decide

/-! ## Host accesses -/

/-- V-C16, V-C17: dropped writes. -/
theorem test_dropped_writes :
    after (fun t => (statusWord t, t.gridSize)) (hostDoes (.wr 0x008#12 5#32) (running .fileHeader 0))
        = some (0x00002009#32, 1#32)
      ∧ after (fun t => (statusWord t, t.grid.read 0)) (hostDoes (.gw 0 2) (running .fileHeader 0))
        = some (0x00002009#32, some 1) := by decide

/-- V-C23: a GRID address from 2047² on. -/
theorem test_no_such_cell :
    after (fun t => t.grid) (hostDoes (.gw 0x3FFFFF#22 1) loaded) = some [(0, 1)]
      ∧ after (fun t => t.gridRdata) (hostDoes (.gr 0x3FFFFF#22) { loaded with gridRdata := 2 }) = some 0 := by decide

/-- V-C20, V-C22. -/
theorem test_register_reads :
    after (fun t => t.regRdata) (hostDoes (.rd 0x005#12) { loaded with regRdata := 7 }) = some 0#32
      ∧ after (fun t => t.color1) (hostDoes (.wr 0x010#12 0xDEADBEEF#32) loaded) = some 0xDEADBEEF#32 := by decide

/-- V-R2, V-R4: GRID survives reset; a cell never written is refused. -/
theorem test_reset_and_grid :
    after (fun t => t.grid.read 5) (step { loaded with grid := [(5, 2)], inputs := [.reset] }) = some (some 2)
      ∧ refusal (hostDoes (.gr 0) State.reset) = some (.unwrittenCell 0) := by decide

/-- R68: an edge reads the state before it, drops the write of a run and takes the transfer. -/
theorem test_edge :
    after (fun t => (t.regRdata, t.busywr, t.pc, t.out))
        (step { running .fileHeader 0 with
          inputs := [.edge { quietPins with regRe := true, regAddr := 0x018#12, gridWe := true, outReady := true }] })
      = some (0#32, true, 1#32, [{ data := 0x42, last := false }]) := by decide

/-! ## The host's contract (section 3.1) -/

/-- V-H1, V-H2, V-H3, V-H4, V-H5. -/
theorem test_construct_refuses :
    construct { colors := [0, 0, 0], gridSize := 0, parameter := [], pattern := [] } = .error .gridSizeNotPositive
      ∧ construct { colors := [0, 0, 0], gridSize := 2, parameter := [[1, 0], [0, 1]],
                    pattern := [[2, 1], [1, 2], [0, 0]] } = .error .matrixShape
      ∧ construct { colors := [0, 0, 0], gridSize := 1, parameter := [[2]], pattern := [[1]] } = .error .parameterDomain
      ∧ construct { colors := [0, 0, 0], gridSize := 1, parameter := [[1]], pattern := [[3]] } = .error .patternDomain
      ∧ construct { colors := [0, 0x1000000, 0], gridSize := 1, parameter := [[1]], pattern := [[1]] }
        = .error .colorRange := by decide

/-- The model of E2 after construct. -/
def e2 : GridModel :=
  { color0 := 0, color1 := 0xFFFFFF, color2 := 0xFF0000, gridSize := 2, parameter := [[1, 0], [0, 1]],
    pattern := [[2, 1], [1, 2]] }

/-- E2 and V-H10: the masked pattern and the cells it loads. -/
theorem test_mask_and_load :
    mask e2 = some { e2 with pattern := [[2, 0], [0, 2]] }
      ∧ (loadOps { e2 with pattern := [[2, 0], [0, 2]] }).drop 4 = [.gw 0 2, .gw 1 0, .gw 2 0, .gw 3 2] := by decide

/-- The image-level vectors of E1. -/
theorem test_pix :
    (pix loaded.grid 1 0 0, pix loaded.grid 1 1 1, pix loaded.grid 1 30 30, pix loaded.grid 1 31 30, pix loaded.grid 1 1 0)
      = (some 0, some 1, some 1, some 0, some 0) ∧ encByte loaded 0x22A = some 0x01 := by decide

/-! ## Witnesses: for every statement with hypotheses, a state and operands that meet them -/

theorem witness_CommandDecodeComparesAllBits :
    (0#32).toNat = 0 ∧ (1#32).toNat = 1 ∧ (2#32).toNat = 2 ∧ 3 ≤ (3#32).toNat ∧ 3 ≤ (0xFFFFFFFF#32).toNat := by decide

theorem witness_PhaseCodesNameTheEngineSteps :
    (0#3).toNat = 0 ∧ (1#3).toNat = 1 ∧ (2#3).toNat = 2 ∧ (3#3).toNat = 3 ∧ (4#3).toNat = 4 ∧ (5#3).toNat = 5
      ∧ 6 ≤ (6#3).toNat ∧ 6 ≤ (7#3).toNat := by decide

theorem witness_DecodeAndEncodeAgree : Instr.wf .nop = true ∧ Instr.wf .pixels = true := by decide

theorem witness_StepRunsTheDecodedInstruction :
    (∃ (s : State) (w : Word) (i : Instr) (rest : List Input),
      s.inputs = .host (.wr 0x000#12 w) :: rest ∧ decode (.cmd w) = .ok i)
    ∧ (∃ (s : State) (i : Instr) (rest : List Input),
      s.state = .busy ∧ decode (.phase s.phase.code) = .ok i ∧ s.inputs = .engine :: rest)
    ∧ ∃ (s : State) (i : Instr), s.state = .busy ∧ decode (.phase s.phase.code) = .ok i ∧ s.inputs = [] :=
  ⟨⟨{ loaded with inputs := [.host (.wr 0x000#12 1#32)] }, 1#32, .start, [], rfl, by decide⟩,
    ⟨{ running .validate 0 with inputs := [.engine] }, .validate, [], rfl, by decide, rfl⟩,
    ⟨running .pixels 585, .pixels, rfl, by decide, rfl⟩⟩

theorem witness_FetchWordIsRunNext :
    decodeTableWord 32 1 = some .start ∧ decodeTableWord 8 5 = some .pixels ∧ decodeTableWord 9 0 = some .nop
      ∧ decodeTableWord 1 1 = some .validate := by decide

theorem witness_NopChangesNothing :
    ∃ (s : State) (rest : List Input), s.inputs = .host (.wr 0x000#12 0x00000000#32) :: rest :=
  ⟨{ loaded with inputs := [.host (.wr 0x000#12 0#32)] }, [], rfl⟩

/-- One state for each clause, at the boundary of its range. -/
theorem witness_StartChecksThenBeginsTheRun :
    (loaded.state ≠ .busy ∧ State.reset.gridSize.toNat = 0)
      ∧ (loaded.gridSize.toNat ≠ 0 ∧ 0x1000000 ≤ (0x01000000#32).toNat ∧ ¬0x1000000 ≤ (0x00FFFFFF#32).toNat
        ∧ 0x1000000 ≤ (0xFFFFFFFF#32).toNat)
      ∧ (65535 < 32 * (2048#32).toNat ∧ 65535 < 32 * (0xFFFFFFFF#32).toNat)
      ∧ (32 * (17#32).toNat ≤ 65535 ∧ 16 < (17#32).toNat)
      ∧ (32 * (2047#32).toNat ≤ 65535 ∧ (2047#32).toNat ≤ State.reset.cfg.maxGrid) := by decide

theorem witness_ClearReturnsToIdle : loaded.state ≠ .busy ∧ (running .pixels 74).state = .busy := by decide

theorem witness_CommandsNotExecutedOnlySetBadcmd :
    ∃ (s t : State) (rest : List Input),
      s.inputs = .host (.wr 0x000#12 3#32) :: rest ∧ 3 ≤ (3#32).toNat ∧ 3 ≤ (0xFFFFFFFF#32).toNat
        ∧ t.inputs = .host (.wr 0x000#12 1#32) :: rest ∧ t.state = .busy ∧ (1#32).toNat = 1 ∧ (2#32).toNat = 2 :=
  ⟨{ loaded with inputs := [.host (.wr 0x000#12 3#32)] },
    { running .validate 0 with inputs := [.host (.wr 0x000#12 1#32)] }, [], rfl, by decide, by decide, rfl, rfl, by decide,
    by decide⟩

theorem running2_written (a b c d : Cell) (p : Phase) (pc : Word) :
    cellsWritten (running2 a b c d p pc).grid (gridG (running2 a b c d p pc)) := by
  intro x (hx : x < 4)
  match x, hx with
  | 0, _ => exact Option.some_ne_none _
  | 1, _ => exact Option.some_ne_none _
  | 2, _ => exact Option.some_ne_none _
  | 3, _ => exact Option.some_ne_none _

/-- A good grid; a grid whose lowest bad cell is the last one of the run. -/
theorem witness_ValidateScansTheCells :
    (∃ s : State, s.state = .busy ∧ s.phase = .validate ∧ cellsWritten s.grid (gridG s)
      ∧ ∀ a, a < gridG s * gridG s → s.grid.read a ≠ some 3)
    ∧ ∃ (s : State) (a : Nat), s.state = .busy ∧ s.phase = .validate ∧ cellsWritten s.grid (gridG s)
      ∧ a < gridG s * gridG s ∧ s.grid.read a = some 3 ∧ ∀ b, b < a → s.grid.read b ≠ some 3 :=
  ⟨⟨running2 2 0 0 2 .validate 0, rfl, rfl, running2_written _ _ _ _ _ _, by decide⟩,
    ⟨running2 2 0 0 3 .validate 0, 3, rfl, rfl, running2_written _ _ _ _ _ _, by decide, by decide, by decide⟩⟩

theorem witness_NeverWrittenCellsAreRefused :
    (∃ (s : State) (a : Nat), s.state = .busy ∧ s.phase = .validate ∧ a < gridG s * gridG s ∧ s.grid.read a = none
      ∧ ∀ b, b < a → s.grid.read b ≠ none)
    ∧ ∃ (s : State) (a : GridAddr) (rest : List Input), s.inputs = .host (.gr a) :: rest
      ∧ a.toNat < s.cfg.maxGrid * s.cfg.maxGrid ∧ s.grid.read a.toNat = none :=
  ⟨⟨{ running .validate 0 with gridSize := 2, grid := [(0, 1), (1, 1), (2, 3)] }, 3, rfl, rfl, by decide, by decide,
      by decide⟩,
    ⟨{ loaded with inputs := [.host (.gr 4190208)] }, 4190208, [], rfl, by decide, by decide⟩⟩

/-- The first and the last offset of the phase. -/
theorem witness_FileHeaderTransfersItsByte :
    (running .fileHeader 0).outReady = true ∧ (running .fileHeader 0).state = .busy
      ∧ (running .fileHeader 0).phase = .fileHeader
      ∧ (fileHeaderBytes Config.default 1)[(running .fileHeader 0).pc.toNat]? = some 0x42
      ∧ (fileHeaderBytes Config.default 1)[(running .fileHeader 13).pc.toNat]? = some 0 := by decide

theorem witness_InfoHeaderTransfersItsByte :
    (running .infoHeader 14).outReady = true ∧ (running .infoHeader 14).state = .busy
      ∧ (running .infoHeader 14).phase = .infoHeader ∧ 14 ≤ (running .infoHeader 14).pc.toNat
      ∧ (infoHeaderBytes 1)[(running .infoHeader 14).pc.toNat - 14]? = some 0x0C
      ∧ (infoHeaderBytes 1)[(running .infoHeader 25).pc.toNat - 14]? = some 0 := by decide

theorem witness_PaletteTransfersItsByte :
    (running .palette 26).outReady = true ∧ (running .palette 26).state = .busy ∧ (running .palette 26).phase = .palette
      ∧ gridG (running .palette 26) ≠ 0 ∧ 26 ≤ (running .palette 26).pc.toNat ∧ (running .palette 73).pc.toNat < 74 := by
  decide

theorem witness_PixelsTransfersItsByte :
    ∃ s t : State, s.state = .busy ∧ s.phase = .pixels ∧ s.outReady = true ∧ s.pc.toNat = 74 ∧ gridG s = 1
      ∧ s.grid.read ((1 - 1 - (74 - 74) / (16 * 1) / 32) * 1 + (74 - 74) % (16 * 1) / 16) = some 1 ∧ (1 : Cell) ≠ 3
      ∧ t.state = .busy ∧ t.phase = .pixels ∧ t.outReady = true ∧ gridG t = 1
      ∧ t.pc.toNat = 74 + 512 * gridG t * gridG t - 1
      ∧ t.grid.read ((1 - 1 - (585 - 74) / (16 * 1) / 32) * 1 + (585 - 74) % (16 * 1) / 16) = some 1 :=
  ⟨running .pixels 74, running .pixels 585, by decide⟩

theorem witness_EveryByteIsEncByteAtPc : ∃ s t : State, step s = .next t := ⟨running .fileHeader 0, _, rfl⟩

theorem witness_UnreadySinkHoldsTheByte :
    ∃ s : State, s.state = .busy ∧ s.phase.producesBytes = true ∧ s.outReady = false ∧ s.inputs = [] :=
  ⟨{ running .pixels 585 with outReady := false }, by decide⟩

theorem witness_EngineStepsNotEnabledChangeNothing :
    loaded.state ≠ .busy ∧ ¬((running .palette 26).state = .busy ∧ (running .palette 26).phase = .validate)
      ∧ ¬((running .palette 26).state = .busy ∧ (running .palette 26).phase = .fileHeader
        ∧ (running .palette 26).outReady = true)
      ∧ ¬((running .palette 26).state = .busy ∧ (running .palette 26).phase = .infoHeader
        ∧ (running .palette 26).outReady = true)
      ∧ ¬(loaded.state = .busy ∧ loaded.phase = .palette ∧ loaded.outReady = true)
      ∧ ¬((running .palette 26).state = .busy ∧ (running .palette 26).phase = .pixels
        ∧ (running .palette 26).outReady = true) := by decide

theorem witness_StatusIsComposedFromItsFields :
    (∃ (s : State) (rest : List Input), s.inputs = .host (.rd 0x004#12) :: rest)
      ∧ ∃ (s : State) (d : Word) (rest : List Input), s.inputs = .host (.wr 0x004#12 d) :: rest :=
  ⟨⟨{ loaded with inputs := [.host (.rd 0x004#12)] }, [], rfl⟩,
    ⟨{ loaded with inputs := [.host (.wr 0x004#12 0xFFFFFFFF#32)] }, 0xFFFFFFFF#32, [], rfl⟩⟩

/-- Every clause: the eight registers, the first unmapped offset, the last one, a misaligned one. -/
theorem witness_ReadReturnsTheAddressedRegister :
    (∃ (s : State) (o : RegOffset) (rest : List Input), s.inputs = .host (.rd o) :: rest)
      ∧ (0x000#12).toNat = 0x00 ∧ (0x004#12).toNat = 0x04 ∧ (0x008#12).toNat = 0x08 ∧ (0x00C#12).toNat = 0x0C
      ∧ (0x010#12).toNat = 0x10 ∧ (0x014#12).toNat = 0x14 ∧ (0x018#12).toNat = 0x18 ∧ (0x01C#12).toNat = 0x1C
      ∧ 0x20 ≤ (0x020#12).toNat ∧ 0x20 ≤ (0xFFF#12).toNat ∧ (0x01D#12).toNat % 4 ≠ 0 :=
  ⟨⟨{ loaded with inputs := [.host (.rd 0x018#12)] }, 0x018#12, [], rfl⟩, by decide⟩

theorem witness_ConfigurationWriteIsStoredOrDropped :
    ∃ (s t : State) (d : Word) (rest : List Input), s.inputs = .host (.wr 0x008#12 d) :: rest ∧ isConfigOffset 0x008#12
      ∧ s.state = .busy ∧ t.inputs = .host (.wr 0x014#12 d) :: rest ∧ t.state ≠ .busy ∧ (0x008#12).toNat = 0x08
      ∧ (0x00C#12).toNat = 0x0C ∧ (0x010#12).toNat = 0x10 ∧ (0x014#12).toNat = 0x14 ∧ isConfigOffset 0x014#12 :=
  ⟨{ running .validate 0 with inputs := [.host (.wr 0x008#12 1#32)] },
    { loaded with inputs := [.host (.wr 0x014#12 1#32)] }, 1#32, [], rfl, .inl rfl, rfl, rfl, by decide, by decide,
    by decide, by decide, by decide, .inr (.inr (.inr rfl))⟩

theorem witness_ReadOnlyAndUnmappedWritesAreIgnored :
    ∃ (s t : State) (rest : List Input), s.inputs = .host (.wr 0x01C#12 1#32) :: rest ∧ (0x004#12).toNat = 0x04
      ∧ (0x018#12).toNat = 0x18 ∧ (0x01C#12).toNat = 0x1C ∧ 0x20 ≤ (0x020#12).toNat ∧ (0x00A#12).toNat % 4 ≠ 0
      ∧ t.inputs = .host (.rd 0x020#12) :: rest :=
  ⟨{ loaded with inputs := [.host (.wr 0x01C#12 1#32)] }, { loaded with inputs := [.host (.rd 0x020#12)] }, [], by decide⟩

/-- The last cell of the default instance and the first address that is no cell. -/
theorem witness_GridWriteWritesOneCell :
    ∃ (s t u : State) (rest : List Input), s.inputs = .host (.gw 0 1) :: rest ∧ s.state = .busy
      ∧ t.inputs = .host (.gw 4190208 1) :: rest ∧ t.state ≠ .busy
      ∧ (4190208#22).toNat < t.cfg.maxGrid * t.cfg.maxGrid
      ∧ u.inputs = .host (.gw 4190209 1) :: rest ∧ u.state ≠ .busy
      ∧ u.cfg.maxGrid * u.cfg.maxGrid ≤ (4190209#22).toNat :=
  ⟨{ running .validate 0 with inputs := [.host (.gw 0 1)] }, { loaded with inputs := [.host (.gw 4190208 1)] },
    { loaded with inputs := [.host (.gw 4190209 1)] }, [], by decide⟩

theorem witness_GridReadReturnsTheCell :
    ∃ (s t : State) (rest : List Input), s.inputs = .host (.gr 0) :: rest
      ∧ (0#22).toNat < s.cfg.maxGrid * s.cfg.maxGrid ∧ s.grid.read (0#22).toNat = some 1
      ∧ t.inputs = .host (.gr 4190209) :: rest ∧ t.cfg.maxGrid * t.cfg.maxGrid ≤ (4190209#22).toNat :=
  ⟨{ loaded with inputs := [.host (.gr 0)] }, { loaded with inputs := [.host (.gr 4190209)] }, [], by decide⟩

theorem witness_ReadsHaveNoSideEffect :
    (∃ (s t : State) (op : HostOp) (rest : List Input), s.inputs = .host op :: rest ∧ step s = .next t
      ∧ (∀ o d, op ≠ .wr o d) ∧ ∀ a v, op ≠ .gw a v)
    ∧ ∃ (s t : State) (op : HostOp) (rest : List Input), s.inputs = .host op :: rest ∧ step s = .next t
      ∧ ∀ d, op ≠ .wr 0x000#12 d :=
  ⟨⟨{ loaded with inputs := [.host (.gr 0)] }, _, .gr 0, [], rfl, rfl, fun _ _ h => (nomatch h), fun _ _ h => (nomatch h)⟩,
    ⟨{ loaded with inputs := [.host (.gw 0 2)] }, _, .gw 0 2, [], rfl, rfl, fun _ h => (nomatch h)⟩⟩

/-- A reset in the middle of a run, as the step and as an edge with a strobe. -/
theorem witness_ResetClearsTheRegistersAndKeepsGrid :
    (∃ (s : State) (rest : List Input), s.state = .busy ∧ s.inputs = .reset :: rest ∧ Input.isReset .reset = true)
      ∧ ∃ (s : State) (p : Pins) (rest : List Input), s.state = .busy ∧ s.inputs = .edge p :: rest ∧ p.regWe = true
        ∧ Input.isReset (.edge p) = true :=
  ⟨⟨{ running .pixels 74 with inputs := [.reset] }, [], rfl, rfl, rfl⟩,
    ⟨{ running .pixels 74 with inputs := [.edge { quietPins with rst := true, regWe := true }] },
      { quietPins with rst := true, regWe := true }, [], rfl, rfl, rfl, rfl⟩⟩

theorem witness_StartStraightAfterResetFails : ∃ s t : State, s.resetNext = true ∧ step s = .next t :=
  ⟨{ running .pixels 74 with inputs := [.reset] }, _, rfl, rfl⟩

/-! ### States of the invariant -/

/-- A run of size 1 whose position fits its phase meets the invariant. -/
theorem running_inv {p : Phase} {pc : Word} (hn : p ≠ .none) (hv : p = .validate → pc = 0)
    (hp : p.producesBytes = true → p = phaseOf pc.toNat ∧ pc.toNat < 586) : (running p pc).Inv := by
  have written : cellsWritten (running p pc).grid (gridG (running p pc)) := by
    intro a (ha : a < 1)
    obtain rfl : a = 0 := by omega
    exact Option.some_ne_none _
  have domain : cellsInDomain (running p pc).grid (gridG (running p pc)) := by
    intro a (ha : a < 1)
    obtain rfl : a = 0 := by omega
    exact (by decide : some (1 : Cell) ≠ some 3)
  refine
    { cfg := by exact (by decide : Config.wf Config.default = true)
      gridForm := by exact (by decide : Grid.wf [(0, 1)] = true)
      gridCells := fun a ha => ?_
      phase := fun h => absurd rfl h
      errcode := ⟨fun _ h => (nomatch h), fun _ => rfl⟩
      noPalette := fun h => (nomatch h)
      errinfo := fun _ => rfl
      position := fun h => by rcases h with h | h <;> cases h
      done := fun h => (nomatch h)
      run := fun _ =>
        { size := by exact (by decide : acceptedSize Config.default 1 = true)
          colours := by exact (by decide : firstBadColour loaded = none)
          notNone := hn
          validate := hv
          position := fun h => ⟨(hp h).1, lt_of_lt_of_eq (hp h).2 (by exact (by decide : 586 = fileSize 1))⟩
          cells := fun _ => ⟨written, domain⟩ } }
  by_cases h0 : (0 : Nat) = a
  · subst h0; exact (by decide : 0 < cellCount Config.default)
  · exact absurd (by simp [running, loaded, Grid.read, h0]) ha

theorem first_inv : (running .fileHeader 0).Inv := running_inv (by decide) (by decide) (by decide)
theorem last_inv : (running .pixels 585).Inv := running_inv (by decide) (by decide) (by decide)
theorem validate_inv : (running .validate 0).Inv := running_inv (by decide) (by decide) (by decide)

/-- At the first byte of a run the stream holds none of it. -/
theorem first_stream : (running .fileHeader 0).StreamInv := fun _ _ => ⟨[], [], rfl, rfl, fun n h => absurd h (Nat.not_lt_zero n)⟩

/-- The invariant looks at no input. -/
theorem inv_with_inputs {s : State} (h : s.Inv) (l : List Input) : State.Inv { s with inputs := l } :=
  { cfg := h.cfg, gridForm := h.gridForm, gridCells := h.gridCells, phase := h.phase, errcode := h.errcode,
    noPalette := h.noPalette, errinfo := h.errinfo, position := h.position, done := h.done,
    run := fun hb =>
      { size := (h.run hb).size, colours := (h.run hb).colours, notNone := (h.run hb).notNone,
        validate := (h.run hb).validate, position := (h.run hb).position, cells := (h.run hb).cells } }

/-- Every byte of E1's image exists. -/
theorem e1_bytes (n : Nat) (h : n < 586) : ∃ b, streamByte (running .pixels 585) n = some b := by
  have hpix : ∀ m, 74 ≤ m → m < 586 → ∃ b, pixByte (running .pixels 585) m = some b := by
    intro m h1 h2
    have hc : cellAddr 1 (scanIndex 1 (m - 74)) = 0 := by
      simp only [cellAddr, scanIndex, rowBytes]
      omega
    refine ⟨pixelByteAt (scanIndex 1 (m - 74)) 1, ?_⟩
    show Option.map _ (Grid.read [(0, 1)] (cellAddr 1 (scanIndex 1 (m - 74)))) = _
    rw [hc]
    rfl
  show ∃ b, Option.map _ (encByte _ n) = some b
  have hb : ∃ b, encByte (running .pixels 585) n = some b := by
    by_cases h1 : n < 26
    · exact ⟨_, if_pos h1⟩
    · by_cases h2 : n < 74
      · exact ⟨_, (if_neg h1).trans (if_pos h2)⟩
      · obtain ⟨b, hb⟩ := hpix n (by omega) h
        exact ⟨b, ((if_neg h1).trans (if_neg h2)).trans ((if_pos (by exact h)).trans hb)⟩
  obtain ⟨b, hb⟩ := hb
  exact ⟨_, by rw [hb]; rfl⟩

/-- The first `k` bytes of E1's image, with their marks. -/
def e1Prefix (k : Nat) : List OutByte :=
  (List.range k).map fun n => (streamByte (running .pixels 585) n).getD { data := 0, last := false }

theorem e1Prefix_get {k n : Nat} (hn : n < k) (hk : k ≤ 586) :
    (e1Prefix k)[n]? = streamByte (running .pixels 585) n := by
  obtain ⟨b, hb⟩ := e1_bytes n (by omega)
  rw [e1Prefix, List.getElem?_map, List.getElem?_range hn, Option.map_some, hb]
  rfl

/-- The invariant looks at no byte emitted. -/
theorem inv_with_out {s : State} (h : s.Inv) (o : List OutByte) : State.Inv { s with out := o } :=
  { cfg := h.cfg, gridForm := h.gridForm, gridCells := h.gridCells, phase := h.phase, errcode := h.errcode,
    noPalette := h.noPalette, errinfo := h.errinfo, position := h.position, done := h.done,
    run := fun hb =>
      { size := (h.run hb).size, colours := (h.run hb).colours, notNone := (h.run hb).notNone,
        validate := (h.run hb).validate, position := (h.run hb).position, cells := (h.run hb).cells } }

/-- A state whose stream is the file up to `pc`. -/
theorem stream_with_out {s : State} {o : List OutByte} (hl : o.length = s.pc.toNat)
    (hb : ∀ n, n < s.pc.toNat → o[n]? = streamByte s n) : State.StreamInv { s with out := o } :=
  fun _ _ => ⟨[], o, rfl, hl, hb⟩

/-- E1's run before its last byte, with what the sink has of it. -/
theorem beforeLast_stream : State.StreamInv { running .pixels 585 with out := e1Prefix 585 } :=
  stream_with_out ((List.length_map _).trans List.length_range) fun n hn => e1Prefix_get hn (by omega)

theorem witness_EveryStepKeepsTheInvariant : ∃ s t : State, s.Inv ∧ step s = .next t :=
  ⟨running .pixels 585, _, last_inv, rfl⟩

theorem witness_EveryStepKeepsTheStream : ∃ s t : State, s.Inv ∧ s.StreamInv ∧ step s = .next t :=
  ⟨running .fileHeader 0, _, first_inv, first_stream, rfl⟩

/-- A run's last transfer, and a START that fails. -/
theorem witness_EndedRunGaveTheWholeFileOrNothing :
    (∃ s t : State, s.Inv ∧ s.StreamInv ∧ step s = .next t ∧ s.state = .busy ∧ t.state = .done)
      ∧ ∃ s t : State, s.state ≠ .busy ∧ s.inputs = [.host (.wr 0x000#12 1#32)] ∧ step s = .next t ∧ t.state = .error :=
  ⟨⟨{ running .pixels 585 with out := e1Prefix 585 }, _, inv_with_out last_inv _, beforeLast_stream, rfl, rfl, by decide⟩,
    ⟨{ loaded with gridSize := 0, inputs := [.host (.wr 0x000#12 1#32)] }, _, by decide, rfl, rfl, rfl⟩⟩

theorem witness_AcceptedStartRunsToDone :
    ∃ s : State, s.state ≠ .busy ∧ s.inputs = [.host (.wr 0x000#12 0x00000001#32)] ∧ s.outReady = true
      ∧ acceptedSize s.cfg (gridG s) = true ∧ firstBadColour s = none ∧ cellsWritten s.grid (gridG s)
      ∧ cellsInDomain s.grid (gridG s) := by
  have hc := ((first_inv.run rfl).cells rfl)
  exact ⟨{ loaded with inputs := [.host (.wr 0x000#12 1#32)] }, by decide, rfl, rfl, by decide, by decide, hc.1, hc.2⟩

/-- The three clauses: a run in a byte-producing phase, and the two refusals. -/
theorem witness_NoStopOnceTheBytesFlow :
    (∃ s : State, s.Inv ∧ s.state = .busy ∧ s.phase.producesBytes = true ∧ s.inputs = [])
      ∧ (∃ s : State, s.Inv ∧ refusal (step s) = some (.unwrittenCell 1))
      ∧ ∃ s : State, s.Inv ∧ refusal (step s) = some .twoAccessesOnePort :=
  ⟨⟨running .pixels 585, last_inv, rfl, rfl, rfl⟩,
    ⟨{ running .validate 0 with inputs := [.host (.gr 1)] }, inv_with_inputs validate_inv _, by decide⟩,
    ⟨{ running .validate 0 with inputs := [.edge { quietPins with regWe := true, regRe := true }] },
      inv_with_inputs validate_inv _, by decide⟩⟩

/-- A run that ends, and a state that enters a run. -/
theorem witness_StateChangesOnlyAsListed :
    (∃ s t : State, s.Inv ∧ step s = .next t ∧ s.state = .busy ∧ t.state ≠ .busy)
      ∧ (∃ s t : State, s.state ≠ .busy ∧ step s = .next t ∧ t.state ≠ s.state)
      ∧ ∃ (s t : State) (op : HostOp) (rest : List Input), s.Inv ∧ step s = .next t ∧ s.state = .busy
        ∧ s.inputs = .host op :: rest :=
  ⟨⟨running .pixels 585, _, last_inv, rfl, rfl, by decide⟩,
    ⟨{ loaded with inputs := [.host (.wr 0x000#12 1#32)] }, _, by decide, rfl, by decide⟩,
    ⟨{ running .validate 0 with inputs := [.host (.wr 0x000#12 2#32)] }, _, .wr 0x000#12 2#32, [],
      inv_with_inputs validate_inv _, rfl, rfl, rfl⟩⟩

/-- A transfer, and a reset in the middle of a run. -/
theorem witness_PcCountsTransfers :
    (∃ s t : State, s.Inv ∧ step s = .next t ∧ t.pc ≠ s.pc)
      ∧ ∃ s t : State, s.Inv ∧ s.resetNext = true ∧ step s = .next t ∧ t.pc ≠ s.pc :=
  ⟨⟨running .pixels 585, _, last_inv, rfl, by decide⟩,
    ⟨{ running .pixels 585 with inputs := [.reset] }, _, inv_with_inputs last_inv _, rfl, rfl, by decide⟩⟩

theorem witness_RunReadsASnapshot :
    ∃ s t : State, s.state = .busy ∧ s.resetNext = false ∧ s.inputs = [.host (.gw 0 2)] ∧ step s = .next t :=
  ⟨{ running .palette 26 with inputs := [.host (.gw 0 2)] }, _, rfl, rfl, rfl, rfl⟩

theorem witness_OnlyGridWritesChangeGrid :
    ∃ (s t : State) (a : Nat), step s = .next t ∧ t.grid.read a ≠ s.grid.read a :=
  ⟨{ loaded with inputs := [.host (.gw 0 2)] }, _, 0, rfl, by decide⟩

theorem witness_StickyFlagsChangeOnlyAsListed :
    (∃ s t : State, step s = .next t ∧ s.badcmd = false ∧ t.badcmd = true)
      ∧ (∃ s t : State, step s = .next t ∧ s.busywr = false ∧ t.busywr = true)
      ∧ ∃ s t : State, step s = .next t ∧ s.badcmd = true ∧ t.badcmd = false :=
  ⟨⟨{ loaded with inputs := [.host (.wr 0x000#12 3#32)] }, _, rfl, rfl, rfl⟩,
    ⟨{ running .validate 0 with inputs := [.host (.gw 0 2)] }, _, rfl, rfl, rfl⟩,
    ⟨{ loaded with badcmd := true, inputs := [.host (.wr 0x000#12 2#32)] }, _, rfl, rfl, rfl⟩⟩

theorem witness_HostCannotChangeTheOfferedByte :
    ∃ (s t : State) (op : HostOp) (rest : List Input), s.Inv ∧ s.state = .busy ∧ s.inputs = .host op :: rest
      ∧ step s = .next t ∧ s.phase.producesBytes = true :=
  ⟨{ running .pixels 585 with inputs := [.host (.gw 0 2)] }, _, .gw 0 2, [], inv_with_inputs last_inv _, rfl, rfl, rfl, rfl⟩

/-- The invariant of an idle state with a given size: `START` meets it. -/
theorem idle_inv (size : Word) : State.Inv { State.reset with gridSize := size, color2 := 0x01000000 } :=
  { cfg := by exact (by decide : Config.wf Config.default = true)
    gridForm := by exact (by decide : Grid.wf [] = true)
    gridCells := fun _ h => absurd rfl h
    phase := fun _ => rfl
    errcode := ⟨fun _ h => (nomatch h), fun _ => rfl⟩
    noPalette := fun h => (nomatch h)
    errinfo := fun _ => rfl
    position := fun _ => rfl
    done := fun h => (nomatch h)
    run := fun h => (nomatch h) }

theorem witness_ErrorsArePreciseAndBeforeTheFirstByte :
    ∃ (i : Instr) (s t : State), s.Inv ∧ exec i s = .next t ∧ t.state = .error ∧ (s.state ≠ .error ∨ i = .start)
      ∧ t.errcode = .valColor :=
  ⟨.start, { State.reset with gridSize := 1, color2 := 0x01000000 }, _, idle_inv 1, rfl, rfl, .inr rfl, rfl⟩

/-- A read on one port with a write on the other, both reads, and two accesses on one port. -/
theorem witness_ClockEdgeIsItsStepSequence :
    (∃ p : Pins, p.rst = false ∧ p.wf = true ∧ p.regRe = true ∧ p.gridWe = true)
      ∧ (∃ p : Pins, p.rst = false ∧ p.wf = true ∧ p.regRe = true ∧ p.gridRe = true)
      ∧ ∃ p : Pins, p.rst = false ∧ p.wf = false :=
  ⟨⟨{ quietPins with regRe := true, gridWe := true }, by decide⟩,
    ⟨{ quietPins with regRe := true, gridRe := true }, by decide⟩,
    ⟨{ quietPins with regWe := true, regRe := true }, by decide⟩⟩

theorem witness_ClockEdgeReadsSeeTheStateBefore :
    ∃ (s t : State) (p : Pins) (rest : List Input), s.inputs = .edge p :: rest ∧ p.rst = false ∧ step s = .next t
      ∧ p.regRe = true ∧ p.gridRe = true :=
  ⟨{ running .fileHeader 0 with inputs := [.edge { quietPins with regRe := true, gridRe := true, outReady := true }] }, _,
    { quietPins with regRe := true, gridRe := true, outReady := true }, [], rfl, rfl, rfl, rfl, rfl⟩

theorem witness_HeaderClosedFormAgrees : 0 < 26 ∧ 25 < 26 := by decide

theorem witness_PaletteClosedFormAgrees : (26 ≤ 26 ∧ 26 < 74) ∧ (26 ≤ 73 ∧ 73 < 74 ∧ 35 ≤ 73) ∧ 35 ≤ 35 := by decide

/-- E1's file, whose bytes all exist. -/
theorem witness_FileLengthIsExact :
    ∃ (s : State) (bytes : List Byte), acceptedSize s.cfg (gridG s) = true ∧ encodeFile s = some bytes := by
  have hmap : ∀ l : List Nat, (∀ n ∈ l, n < 586) → ∃ bytes, l.mapM (encByte (running .pixels 585)) = some bytes := by
    intro l
    induction l with
    | nil => exact fun _ => ⟨[], rfl⟩
    | cons n l ih =>
      intro h
      obtain ⟨b, hb⟩ := e1_bytes n (h n (by simp))
      obtain ⟨c, hc, -⟩ := Option.map_eq_some_iff.mp hb
      obtain ⟨bs, hbs⟩ := ih fun m hm => h m (by simp [hm])
      exact ⟨c :: bs, by rw [List.mapM_cons, hc, hbs]; rfl⟩
  obtain ⟨bytes, hb⟩ := hmap (List.range (fileSize (gridG (running .pixels 585)))) fun n hn => List.mem_range.mp hn
  exact ⟨running .pixels 585, bytes, by decide, hb⟩

theorem witness_ScanIndicesAreTheFourLoops :
    0 < 512 * 1 * 1 ∧ 2047 < 512 * 2 * 2 ∧ 1 < 2 ∧ 31 < 32 ∧ 15 < 16 := by decide

/-- A corner pixel, and an interior one with its cell. -/
theorem witness_PixelDataIsTheFramedImage :
    ∃ s : State, cellsWritten s.grid (gridG s) ∧ 63 < imageSide (gridG s) ∧ (63 % 32 = 0 ∨ 63 % 32 = 31)
      ∧ ¬(33 % 32 = 0 ∨ 33 % 32 = 31 ∨ 30 % 32 = 0 ∨ 30 % 32 = 31)
      ∧ s.grid.read (30 / 32 * gridG s + 33 / 32) = some 2 :=
  ⟨running2 1 2 0 1 .pixels 74, running2_written _ _ _ _ _ _, by decide, by decide, by decide, by decide⟩

theorem witness_FileIsAFunctionOfTheSnapshot : ∃ s t : State, sameSnapshot s t ∧ s ≠ t :=
  ⟨loaded, running .pixels 585, ⟨rfl, rfl, rfl, rfl, rfl, rfl⟩, by decide⟩

/-- Each clause with a value at the edge of its condition. -/
theorem witness_ConstructChecksInOrder :
    ((0 : Int) ≤ 0 ∧ (0 : Int) < 1)
      ∧ ¬((([[1, 0], [0]] : List (List Int)).length : Int) = 2 ∧ ∀ row ∈ ([[1, 0], [0]] : List (List Int)), (row.length : Int) = 2)
      ∧ ((([[1]] : List (List Int)).length : Int) = 1 ∧ ∀ row ∈ ([[1]] : List (List Int)), (row.length : Int) = 1)
      ∧ ¬(∀ row ∈ ([[2]] : List (List Int)), ∀ v ∈ row, 0 ≤ v ∧ v ≤ 1)
      ∧ (∀ row ∈ ([[1]] : List (List Int)), ∀ v ∈ row, 0 ≤ v ∧ v ≤ 1)
      ∧ ¬(∀ row ∈ ([[3]] : List (List Int)), ∀ v ∈ row, 0 ≤ v ∧ v ≤ 2)
      ∧ (∀ row ∈ ([[2]] : List (List Int)), ∀ v ∈ row, 0 ≤ v ∧ v ≤ 2)
      ∧ ¬((0 : Int) ≤ 0x1000000 ∧ (0x1000000 : Int) ≤ 0xFFFFFF) ∧ ((0 : Int) ≤ 0xFFFFFF ∧ (0xFFFFFF : Int) ≤ 0xFFFFFF) := by
  decide

theorem witness_MaskKeepsOrZeroesEachCell : ∃ m : GridModel, m.valid = true ∧ 1 < m.gridSize := ⟨e2, by decide⟩

theorem witness_LoadingPutsTheModelIntoTheBlock :
    ∃ (s : State) (m : GridModel), s.cfg.wf = true ∧ m.valid = true ∧ m.gridSize ≤ s.cfg.maxGrid ∧ s.state ≠ .busy
      ∧ s.inputs = (loadOps m).map Input.host :=
  ⟨{ State.reset with inputs := (loadOps e2).map Input.host }, e2, by decide, by decide, by decide, by decide, rfl⟩

/-- What the host is given in E2. -/
def e2Raw : RawModel :=
  { colors := [0, 0xFFFFFF, 0xFF0000], gridSize := 2, parameter := [[1, 0], [0, 1]], pattern := [[2, 1], [1, 2]] }

/-- E2, V-H10: the program loads the masked pattern; a model above MAX_GRID and V-H4 have none. -/
theorem test_encodeProgram :
    encodeProgram Config.default e2Raw = .ok (loadAndStart { e2 with pattern := [[2, 0], [0, 2]] })
      ∧ encodeProgram { Config.default with maxGrid := 1 } e2Raw = .error .exceedsCapacity
      ∧ encodeProgram Config.default { e2Raw with gridSize := 1, parameter := [[1]], pattern := [[3]] }
        = .error (.invalid .patternDomain) := by decide

theorem witness_HostProgramProducesTheImage :
    ∃ (s : State) (r : RawModel) (program : List Input), s.cfg.wf = true ∧ s.state ≠ .busy ∧ s.outReady = true
      ∧ encodeProgram s.cfg r = .ok program ∧ s.inputs = program :=
  ⟨{ State.reset with inputs := loadAndStart { e2 with pattern := [[2, 0], [0, 2]] } }, e2Raw, _, by decide, by decide, rfl,
    test_encodeProgram.1, rfl⟩

/-- A model that was not masked. -/
theorem witness_LoadedModelIsEncodedAsGiven :
    ∃ (s : State) (m : GridModel), s.cfg.wf = true ∧ m.valid = true ∧ m.gridSize ≤ s.cfg.maxGrid ∧ s.state ≠ .busy
      ∧ s.outReady = true ∧ s.inputs = loadAndStart m ∧ 63 < 32 * m.gridSize ∧ mask m ≠ some m :=
  ⟨{ State.reset with inputs := loadAndStart e2 }, e2, by decide, by decide, by decide, by decide, rfl, rfl, by decide,
    by decide⟩

/-- Each clause: a program, a refusal of construct, the largest size that fits and the first that does not. -/
theorem witness_HostProgramFollowsTheLifecycle :
    (∃ program, encodeProgram Config.default e2Raw = .ok program)
      ∧ construct { e2Raw with gridSize := 0 } = .error .gridSizeNotPositive
      ∧ construct e2Raw = .ok e2 ∧ e2.gridSize ≤ ({ Config.default with maxGrid := 2 } : Config).maxGrid
      ∧ ({ Config.default with maxGrid := 1 } : Config).maxGrid < e2.gridSize
      ∧ entry e2.parameter 0 1 = some 0 :=
  ⟨⟨_, test_encodeProgram.1⟩, by decide⟩

end Sys2Proof.Tests
end

section
/-! PROOF. The family of the STATUS register: its word as a number (R23), and what a read or a write of it does (R59, R137). -/

namespace Sys2Proof.Machine

/-- A field laid above every bit of `a` adds its value times its weight: the bits do not meet. -/
theorem toNat_or_field {v w n : Nat} {a : BitVec w} (x : BitVec v) (ha : a.toNat < 2 ^ n) (hw : v + n ≤ w) :
    (a ||| x.setWidth w <<< n).toNat = a.toNat + 2 ^ n * x.toNat := by
  have hfits : 2 ^ n * x.toNat < 2 ^ w :=
    calc 2 ^ n * x.toNat < 2 ^ n * 2 ^ v := Nat.mul_lt_mul_of_pos_left x.isLt (Nat.two_pow_pos n)
      _ = 2 ^ (v + n) := by rw [← Nat.pow_add, Nat.add_comm]
      _ ≤ 2 ^ w := Nat.pow_le_pow_right Nat.two_pos hw
  have hfield : (x.setWidth w <<< n).toNat = 2 ^ n * x.toNat := by
    rw [BitVec.toNat_shiftLeft, BitVec.toNat_setWidth_of_le (by omega), Nat.shiftLeft_eq, Nat.mul_comm,
      Nat.mod_eq_of_lt hfits]
  rw [BitVec.toNat_or, hfield, Nat.or_comm, ← Nat.two_pow_add_eq_or_of_lt ha, Nat.add_comm]

/-- STATUS as a number (R23): each field lies above the ones before it, so the word is their weighted sum. -/
theorem statusWord_toNat (s : State) :
    (statusWord s).toNat =
      s.state.code.toNat + 4 * s.phase.code.toNat + 256 * s.errcode.code.toNat
        + (if s.badcmd then 4096 else 0) + (if s.busywr then 8192 else 0) := by
  have hstate := s.state.code.isLt
  have hphase := s.phase.code.isLt
  have herr := s.errcode.code.isLt
  have hbad := (BitVec.ofBool s.badcmd).isLt
  have h0 : (s.state.code.setWidth 32).toNat = s.state.code.toNat := BitVec.toNat_setWidth_of_le (by decide)
  have h1 := toNat_or_field (n := 2) s.phase.code (h0.trans_lt hstate) (by decide)
  have h2 := toNat_or_field (n := 8) s.errcode.code (h1.trans_lt (by omega)) (by decide)
  have h3 := toNat_or_field (n := 12) (BitVec.ofBool s.badcmd) (h2.trans_lt (by omega)) (by decide)
  have h4 := toNat_or_field (n := 13) (BitVec.ofBool s.busywr) (h3.trans_lt (by omega)) (by decide)
  have hflag (b : Bool) (k : Nat) : k * (BitVec.ofBool b).toNat = if b then k else 0 := by cases b <;> simp
  rw [statusWord, h4, h3, h2, h1, h0, hflag, hflag]
  simp only [Nat.reducePow]

/-- A step whose input is a transaction of the host is that transaction, on the state without it (R14). -/
theorem step_host {s : State} {op : HostOp} {rest : List Input} (h : s.inputs = .host op :: rest) :
    step s = hostStep op { s with inputs := rest } := by
  simp only [step, h, inputStep]

/-- The registers do not depend on the inputs still to come. -/
@[simp] theorem regValue_with_inputs (s : State) (o : RegOffset) (rest : List Input) :
    regValue { s with inputs := rest } o = regValue s o := rfl

/-- RD as a step (R136): only the read data port changes (R59). -/
theorem step_rd {s : State} {o : RegOffset} {rest : List Input} (h : s.inputs = .host (.rd o) :: rest) :
    step s = .next { s with inputs := rest, regRdata := regValue s o } := by
  rw [step_host h, hostStep, hostRd, regValue_with_inputs]

/-- A write that addresses neither CMD nor a configuration register is ignored (R137, R138). -/
theorem hostWr_ignored {o : RegOffset} (hcmd : o ≠ 0x000#12) (hcfg : ¬isConfigOffset o) (d : Word) (s : State) :
    hostWr o d s = .next s := by
  simp only [isConfigOffset, not_or] at hcfg
  obtain ⟨h8, hc, h10, h14⟩ := hcfg
  rw [hostWr, if_neg hcmd, if_neg h8, if_neg hc, if_neg h10, if_neg h14]

/-- An ignored write as a step: the input is taken and nothing else changes (R137, R138). -/
theorem step_wr_ignored {s : State} {o : RegOffset} {d : Word} {rest : List Input}
    (h : s.inputs = .host (.wr o d) :: rest) (hcmd : o ≠ 0x000#12) (hcfg : ¬isConfigOffset o) :
    step s = .next { s with inputs := rest } := by
  rw [step_host h, hostStep, hostWr_ignored hcmd hcfg]

/-- Settles O20: the codes and the reset word are the model's tables (R24, R25, R26, R39); the word is `statusWord_toNat`; the
read is `step_rd` at offset 0x004, and the write is one of the ignored ones. -/
theorem statusIsComposedFromItsFields : Obligations.StatusIsComposedFromItsFields := by
  unfold Obligations.StatusIsComposedFromItsFields
  refine ⟨by decide, by decide, by decide, by decide, fun s => ⟨statusWord_toNat s, ?read, ?write⟩⟩
  case read =>
    intro rest h
    exact step_rd h
  case write =>
    intro d rest h
    exact step_wr_ignored h (by decide) (by simp [isConfigOffset])

end Sys2Proof.Machine
end

section
/-! PROOF. The family of the memories: what reads and writes leave unchanged (R59), what a run reads (R65), and who writes
GRID (R53). -/

namespace Sys2Proof.Machine

/-! ## The GRID memory and the read data port -/

/-- After a write, a cell reads as before, or it is the cell written and reads the value written. -/
theorem Grid.read_write_cases (g : Grid) (b : Nat) (v : Cell) (a : Nat) :
    (g.write b v).read a = g.read a ∨ (b = a ∧ (g.write b v).read a = some v) := by
  by_cases h : a = b
  · subst h
    exact .inr ⟨rfl, Grid.read_write_same g a v⟩
  · exact .inl (Grid.read_write_other g b a v h)

/-- What GR puts on the read data port (R140): the content of a written cell, or 0 where there is no such cell. -/
def gridAnswer (s : State) (a : GridAddr) (v : Cell) : Prop :=
  (a.toNat < cellCount s.cfg ∧ s.grid.read a.toNat = some v) ∨ (cellCount s.cfg ≤ a.toNat ∧ v = 0)

/-- GR answers a next state exactly when there is a content to answer with, and only the read data port changes. -/
theorem hostGr_next_iff {b s t : State} {a : GridAddr} :
    hostGr b a s = .next t ↔ ∃ v, gridAnswer b a v ∧ t = { s with gridRdata := v } := by
  unfold hostGr gridAnswer
  by_cases ha : a.toNat < cellCount b.cfg
  · cases hr : b.grid.read a.toNat with
    | none => simp [ha, Nat.not_le.mpr ha]
    | some v => simp [ha, Nat.not_le.mpr ha, eq_comm (b := t)]
  · simp [ha, Nat.not_lt.mp ha, eq_comm (b := t)]

/-! ## What a step can do to GRID and to the snapshot of a run -/

theorem sameSnapshot_refl (s : State) : sameSnapshot s s := ⟨rfl, rfl, rfl, rfl, rfl, rfl⟩

theorem sameSnapshot.trans {s t u : State} (hst : sameSnapshot s t) (htu : sameSnapshot t u) : sameSnapshot s u := by
  obtain ⟨c, g, c0, c1, c2, m⟩ := hst
  obtain ⟨c', g', c0', c1', c2', m'⟩ := htu
  exact ⟨c'.trans c, g'.trans g, c0'.trans c0, c1'.trans c1, c2'.trans c2, m'.trans m⟩

theorem sameSnapshot.grid_eq {s t : State} (h : sameSnapshot s t) : t.grid = s.grid := by
  obtain ⟨-, -, -, -, -, hgrid⟩ := h
  exact hgrid

/-- No command and no engine step writes a configuration register or GRID: none of the updates `exec` is made of does. -/
theorem exec_sameSnapshot {i : Instr} {s t : State} (h : exec i s = .next t) : sameSnapshot s t := by
  rcases exec_next_cases h with ⟨-, -, rfl⟩ | ⟨-, -, rfl⟩ | ⟨-, -, _, _, -, rfl⟩ | ⟨-, -, -, rfl⟩ | ⟨-, -, rfl⟩
    | ⟨-, -, -, _, -, -, rfl⟩ | ⟨-, -, -, -, -, rfl⟩ | ⟨b, -, rfl⟩ <;>
    simp [sameSnapshot, transferByte]

theorem engineTurn_sameSnapshot {s t : State} (h : engineTurn s = .next t) : sameSnapshot s t := by
  rcases engineTurn_next h with rfl | ⟨-, i, -, hi⟩
  · exact sameSnapshot_refl t
  · exact exec_sameSnapshot hi

/-- WR, whatever its offset, writes no cell (R53). -/
theorem hostWr_grid {o : RegOffset} {d : Word} {s t : State} (h : hostWr o d s = .next t) : t.grid = s.grid := by
  rcases hostWr_next h with ⟨-, i, -, hi⟩ | ⟨-, -, rfl⟩ | ⟨-, -, rfl⟩ | ⟨-, -, hcfg⟩ | ⟨-, -, rfl⟩
  · exact (exec_sameSnapshot hi).grid_eq
  · rfl
  · rfl
  · rcases hcfg with ⟨-, rfl⟩ | ⟨-, rfl⟩ | ⟨-, rfl⟩ | ⟨-, rfl⟩ <;> rfl
  · rfl

/-- While BUSY a WR changes nothing a run reads (R133, R135). -/
theorem hostWr_sameSnapshot_of_busy {o : RegOffset} {d : Word} {s t : State} (hb : s.state = .busy)
    (h : hostWr o d s = .next t) : sameSnapshot s t := by
  rcases hostWr_next h with ⟨-, i, -, hi⟩ | ⟨-, -, rfl⟩ | ⟨-, -, rfl⟩ | ⟨-, hnb, -⟩ | ⟨-, -, rfl⟩
  · exact exec_sameSnapshot hi
  · exact sameSnapshot_refl s
  · exact sameSnapshot_refl s
  · exact absurd hb hnb
  · exact sameSnapshot_refl _

/-- A GW while BUSY only sets BUSYWR (R139). -/
theorem hostGw_of_busy {a : GridAddr} {v : Cell} {s : State} (hb : s.state = .busy) :
    hostGw a v s = .next (setBusywr s) := if_pos hb

/-- What GW does to GRID (R139): nothing, or outside BUSY the write of its cell. -/
theorem hostGw_grid {a : GridAddr} {v : Cell} {s t : State} (h : hostGw a v s = .next t) :
    t.grid = s.grid ∨ (s.state ≠ .busy ∧ t.grid = s.grid.write a.toNat v) := by
  rcases hostGw_next h with ⟨-, rfl⟩ | ⟨hnb, -, rfl⟩ | ⟨-, -, rfl⟩
  · exact .inl rfl
  · exact .inr ⟨hnb, rfl⟩
  · exact .inl rfl

/-- The GRID access of a cycle: a GW, or at most a new answer on the read data port (R68). -/
theorem edgeGrid_next {p : Pins} {b s t : State} (h : edgeGrid p b s = .next t) :
    (p.gridWe = true ∧ hostGw p.gridAddr p.gridWdata s = .next t) ∨ ∃ v, t = { s with gridRdata := v } := by
  unfold edgeGrid at h
  split at h
  · next hwe => exact .inl ⟨hwe, h⟩
  · split at h
    · exact .inr (hostGr_next h)
    · exact .inr ⟨s.gridRdata, by simpa using h.symm⟩

/-- The REG access of a cycle: a WR, or at most a new answer on the read data port (R68). -/
theorem edgeReg_next {p : Pins} {b s t : State} (h : edgeReg p b s = .next t) :
    (p.regWe = true ∧ hostWr p.regAddr p.regWdata s = .next t) ∨ ∃ v, t = { s with regRdata := v } := by
  unfold edgeReg at h
  split at h
  · next hwe => exact .inl ⟨hwe, h⟩
  · split at h
    · exact .inr ⟨_, hostRd_next h⟩
    · exact .inr ⟨s.regRdata, by simpa using h.symm⟩

theorem edgeEngine_sameSnapshot {b s t : State} (h : edgeEngine b s = .next t) : sameSnapshot s t := by
  unfold edgeEngine at h
  split at h
  · exact engineTurn_sameSnapshot h
  · obtain rfl : s = t := by simpa using h
    exact sameSnapshot_refl s

theorem edgeReg_grid {p : Pins} {b s t : State} (h : edgeReg p b s = .next t) : t.grid = s.grid := by
  rcases edgeReg_next h with ⟨-, hwr⟩ | ⟨v, rfl⟩
  · exact hostWr_grid hwr
  · rfl

/-- While BUSY the GRID access of a cycle changes nothing a run reads, and the run goes on. -/
theorem edgeGrid_of_busy {p : Pins} {b s t : State} (hb : s.state = .busy) (h : edgeGrid p b s = .next t) :
    sameSnapshot s t ∧ t.state = .busy := by
  rcases edgeGrid_next h with ⟨-, hgw⟩ | ⟨v, rfl⟩
  · obtain rfl : setBusywr s = t := by simpa [hostGw_of_busy hb] using hgw
    exact ⟨sameSnapshot_refl s, hb⟩
  · exact ⟨sameSnapshot_refl s, hb⟩

theorem edgeReg_sameSnapshot_of_busy {p : Pins} {b s t : State} (hb : s.state = .busy) (h : edgeReg p b s = .next t) :
    sameSnapshot s t := by
  rcases edgeReg_next h with ⟨-, hwr⟩ | ⟨v, rfl⟩
  · exact hostWr_sameSnapshot_of_busy hb hwr
  · exact sameSnapshot_refl s

/-! ## Who writes GRID -/

/-- What a host transaction does to GRID: nothing, unless it is a GW outside BUSY (R53). -/
theorem hostStep_grid {op : HostOp} {s t : State} (h : hostStep op s = .next t) :
    t.grid = s.grid ∨ (s.state ≠ .busy ∧ ∃ a v, op = .gw a v ∧ t.grid = s.grid.write a.toNat v) := by
  cases op with
  | wr o d => exact .inl (hostWr_grid h)
  | rd o => exact .inl (by rw [hostRd_next h])
  | gw a v => exact (hostGw_grid h).imp_right fun ⟨hnb, hg⟩ => ⟨hnb, a, v, rfl, hg⟩
  | gr a =>
    obtain ⟨v, rfl⟩ := hostGr_next h
    exact .inl rfl

/-- What a clock edge does to GRID: nothing, unless it carries a GW outside BUSY and no reset (R53, R68). -/
theorem clockEdge_grid {p : Pins} {s t : State} (h : clockEdge p s = .next t) :
    t.grid = s.grid ∨ (s.state ≠ .busy ∧ p.rst = false ∧ p.gridWe = true
      ∧ t.grid = s.grid.write p.gridAddr.toNat p.gridWdata) := by
  rcases clockEdge_next h with ⟨-, rfl⟩ | ⟨hr, -, s1, s2, hgrid, hreg, heng⟩
  · exact .inl rfl
  · rw [(edgeEngine_sameSnapshot heng).grid_eq, edgeReg_grid hreg]
    rcases edgeGrid_next hgrid with ⟨hwe, hgw⟩ | ⟨v, rfl⟩
    · exact (hostGw_grid hgw).imp_right fun ⟨hnb, hg⟩ => ⟨hnb, hr, hwe, hg⟩
    · exact .inl rfl

/-- What a step does to GRID: nothing, unless it makes a GW outside BUSY (R53). -/
theorem step_grid {s t : State} (h : step s = .next t) :
    t.grid = s.grid ∨ (s.state ≠ .busy ∧ ∃ a v, s.gridWriteNext = some (a, v) ∧ t.grid = s.grid.write a.toNat v) := by
  rcases step_next_cases h with ⟨-, heng⟩ | ⟨i, rest, hi, hin⟩
  · exact .inl (engineTurn_sameSnapshot heng).grid_eq
  · cases i with
    | host op =>
      refine (hostStep_grid hin).imp_right ?_
      rintro ⟨hnb, a, v, rfl, hg⟩
      exact ⟨hnb, a, v, by simp [State.gridWriteNext, hi], hg⟩
    | engine => exact .inl (engineTurn_sameSnapshot hin).grid_eq
    | sink ready =>
      obtain rfl : _ = t := Host.Outcome.next.inj hin
      exact .inl rfl
    | reset =>
      obtain rfl : _ = t := Host.Outcome.next.inj hin
      exact .inl rfl
    | edge p =>
      refine (clockEdge_grid hin).imp_right fun ⟨hnb, hr, hwe, hg⟩ => ?_
      exact ⟨hnb, p.gridAddr, p.gridWdata, by simp [State.gridWriteNext, hi, hr, hwe], hg⟩

/-- Settles O38: by `step_grid` a step that changes GRID makes a GW outside BUSY, and a cell that changed is the one written. -/
theorem onlyGridWritesChangeGrid : Obligations.OnlyGridWritesChangeGrid := by
  unfold Obligations.OnlyGridWritesChangeGrid
  intro s t a h hne
  rcases step_grid h with hg | ⟨hnb, ga, v, hw, hg⟩
  · exact absurd (by rw [hg]) hne
  · rw [hg] at hne ⊢
    obtain ⟨ha, hv⟩ := (Grid.read_write_cases s.grid ga.toNat v a).resolve_left hne
    exact ⟨hnb, ga, v, hw, ha, hv⟩

/-! ## What a run reads -/

/-- While BUSY no host transaction changes what the run reads (R133, R135, R139). -/
theorem hostStep_sameSnapshot_of_busy {op : HostOp} {s t : State} (hb : s.state = .busy)
    (h : hostStep op s = .next t) : sameSnapshot s t := by
  cases op with
  | wr o d => exact hostWr_sameSnapshot_of_busy hb h
  | rd o =>
    rw [hostRd_next h]
    exact sameSnapshot_refl s
  | gw a v =>
    obtain rfl : setBusywr s = t := by simpa [hostStep, hostGw_of_busy hb] using h
    exact sameSnapshot_refl s
  | gr a =>
    obtain ⟨v, rfl⟩ := hostGr_next h
    exact sameSnapshot_refl s

/-- While BUSY a clock edge without reset changes nothing the run reads: each of its three parts keeps it (R68). -/
theorem clockEdge_sameSnapshot_of_busy {p : Pins} {s t : State} (hb : s.state = .busy) (hrst : p.rst = false)
    (h : clockEdge p s = .next t) : sameSnapshot s t := by
  rcases clockEdge_next h with ⟨hr, -⟩ | ⟨-, -, s1, s2, hgrid, hreg, heng⟩
  · simp [hrst] at hr
  · obtain ⟨hs1, hb1⟩ := edgeGrid_of_busy (s := { s with outReady := p.outReady }) hb hgrid
    exact (hs1.trans (edgeReg_sameSnapshot_of_busy hb1 hreg)).trans (edgeEngine_sameSnapshot heng)

/-- While BUSY no step but a reset changes what the run reads (R65). -/
theorem step_sameSnapshot_of_busy {s t : State} (hb : s.state = .busy) (hnr : s.resetNext = false)
    (h : step s = .next t) : sameSnapshot s t := by
  rcases step_next_cases h with ⟨-, heng⟩ | ⟨i, rest, hi, hin⟩
  · exact engineTurn_sameSnapshot heng
  · have hreset : i.isReset = false := by simpa [State.resetNext, hi] using hnr
    cases i with
    | host op => exact hostStep_sameSnapshot_of_busy (s := { s with inputs := rest }) hb hin
    | engine => exact engineTurn_sameSnapshot (s := { s with inputs := rest }) hin
    | sink ready =>
      obtain rfl : _ = t := Host.Outcome.next.inj hin
      exact sameSnapshot_refl s
    | reset => cases hreset
    | edge p => exact clockEdge_sameSnapshot_of_busy (s := { s with inputs := rest }) hb hreset hin

/-- The byte at every file offset, with its mark, is a function of the snapshot (R202). -/
theorem streamByte_eq_of_sameSnapshot {s t : State} (h : sameSnapshot s t) (n : Nat) :
    streamByte t n = streamByte s n := by
  obtain ⟨hcfg, hsize, h0, h1, h2, hgrid⟩ := h
  have hG : gridG t = gridG s := by rw [gridG, hsize, gridG]
  have hpal : palByte t n = palByte s n := by simp only [palByte, paletteSlot, h0, h1, h2]
  have hpix : pixByte t n = pixByte s n := by simp only [pixByte, hG, hgrid]
  simp only [streamByte, encByte, hG, hcfg, hpal, hpix]

/-- Settles O37: the snapshot is `step_sameSnapshot_of_busy`, and every byte is a function of it. -/
theorem runReadsASnapshot : Obligations.RunReadsASnapshot := by
  unfold Obligations.RunReadsASnapshot
  intro s t hb hnr h
  have hsnap := step_sameSnapshot_of_busy hb hnr h
  exact ⟨hsnap, streamByte_eq_of_sameSnapshot hsnap⟩

/-! ## Reads, and writes other than to CMD -/

/-- GR as a step (R140): it answers what `gridAnswer` says and only the read data port changes (R59). -/
theorem step_gr_next_iff {s t : State} {a : GridAddr} {rest : List Input} (h : s.inputs = .host (.gr a) :: rest) :
    step s = .next t ↔ ∃ v, gridAnswer s a v ∧ t = { s with inputs := rest, gridRdata := v } := by
  rw [step_host h, hostStep, hostGr_next_iff]
  rfl

/-- A read changes the read data ports only, and the same read again answers the same state (R59). -/
theorem step_read_idempotent {s t : State} {op : HostOp} {rest : List Input} (hi : s.inputs = .host op :: rest)
    (hwr : ∀ o d, op ≠ .wr o d) (hgw : ∀ a v, op ≠ .gw a v) (h : step s = .next t) :
    t = { s with inputs := rest, regRdata := t.regRdata, gridRdata := t.gridRdata }
      ∧ step { t with inputs := .host op :: rest } = .next t := by
  cases op with
  | wr o d => exact absurd rfl (hwr o d)
  | rd o =>
    obtain rfl : _ = t := Host.Outcome.next.inj ((step_rd hi).symm.trans h)
    exact ⟨rfl, step_rd rfl⟩
  | gw a v => exact absurd rfl (hgw a v)
  | gr a =>
    obtain ⟨v, hv, rfl⟩ := (step_gr_next_iff hi).mp h
    exact ⟨rfl, (step_gr_next_iff rfl).mpr ⟨v, hv, rfl⟩⟩

/-- Everything a host transaction other than a write to CMD can do (R135 to R140): a new answer on a read data port or
nothing, a write dropped while BUSY, a configuration register written, a cell written. -/
theorem hostStep_next_cases {op : HostOp} {s t : State} (hcmd : ∀ d, op ≠ .wr 0x000#12 d)
    (h : hostStep op s = .next t) :
    (∃ r g, t = { s with regRdata := r, gridRdata := g })
    ∨ (s.state = .busy ∧ t = setBusywr s)
    ∨ (∃ o d, op = .wr o d ∧ storesConfig o d s t)
    ∨ ∃ a v, op = .gw a v ∧ t = { s with grid := s.grid.write a.toNat v } := by
  cases op with
  | wr o d =>
    have ho : o ≠ 0x000#12 := fun e => hcmd d (by rw [e])
    rcases hostWr_next h with ⟨h0, -⟩ | ⟨h0, -⟩ | ⟨-, hb, e⟩ | ⟨-, -, e⟩ | ⟨-, -, rfl⟩
    · exact absurd h0 ho
    · exact absurd h0 ho
    · exact .inr (.inl ⟨hb, e⟩)
    · exact .inr (.inr (.inl ⟨o, d, rfl, e⟩))
    · exact .inl ⟨_, _, rfl⟩
  | rd o => exact .inl ⟨_, _, hostRd_next h⟩
  | gw a v =>
    rcases hostGw_next h with ⟨hb, e⟩ | ⟨-, -, e⟩ | ⟨-, -, rfl⟩
    · exact .inr (.inl ⟨hb, e⟩)
    · exact .inr (.inr (.inr ⟨a, v, rfl, e⟩))
    · exact .inl ⟨_, _, rfl⟩
  | gr a =>
    obtain ⟨v, e⟩ := hostGr_next h
    exact .inl ⟨_, v, e⟩

/-- Settles O26: reads are `step_read_idempotent`; the other transactions that are no write to CMD do what
`hostStep_next_cases` says, and each case changes the one datum it names. -/
theorem readsHaveNoSideEffect : Obligations.ReadsHaveNoSideEffect := by
  unfold Obligations.ReadsHaveNoSideEffect
  intro s t op rest hi h
  refine ⟨fun hwr hgw => step_read_idempotent hi hwr hgw h, fun hcmd => ?_⟩
  rw [step_host hi] at h
  rcases hostStep_next_cases hcmd h with ⟨r, g, rfl⟩ | ⟨hb, rfl⟩ | ⟨o, d, rfl, hcfg⟩ | ⟨ga, v, rfl, rfl⟩
  · exact ⟨rfl, .inl rfl, .inl rfl, .inl rfl, .inl rfl, .inl rfl, fun _ => .inl rfl⟩
  · exact ⟨rfl, .inr ⟨hb, rfl⟩, .inl rfl, .inl rfl, .inl rfl, .inl rfl, fun _ => .inl rfl⟩
  · rcases hcfg with ⟨rfl, rfl⟩ | ⟨rfl, rfl⟩ | ⟨rfl, rfl⟩ | ⟨rfl, rfl⟩
    · exact ⟨rfl, .inl rfl, .inr rfl, .inl rfl, .inl rfl, .inl rfl, fun _ => .inl rfl⟩
    · exact ⟨rfl, .inl rfl, .inl rfl, .inr rfl, .inl rfl, .inl rfl, fun _ => .inl rfl⟩
    · exact ⟨rfl, .inl rfl, .inl rfl, .inl rfl, .inr rfl, .inl rfl, fun _ => .inl rfl⟩
    · exact ⟨rfl, .inl rfl, .inl rfl, .inl rfl, .inl rfl, .inr rfl, fun _ => .inl rfl⟩
  · refine ⟨rfl, .inl rfl, .inl rfl, .inl rfl, .inl rfl, .inl rfl, fun a => ?_⟩
    exact (Grid.read_write_cases s.grid ga.toNat v a).imp_right fun ⟨ha, hv⟩ => ⟨ga, v, rfl, ha, hv⟩

end Sys2Proof.Machine
end

section
/-! PROOF. The family of the encodings: the command word (R82) and the four forms of a pixel byte (R91). -/

namespace Sys2Proof.Machine

/-! ## The command word -/

/-- A command word from 3 on is none of the three codes, so it is reserved (R82). -/
theorem decodeCmd_reserved {w : Word} (h : 3 ≤ w.toNat) : decodeCmd w = .error (.reservedCommand w) := by
  have hne (k : Word) (hk : k.toNat < 3) : w ≠ k := by
    rintro rfl
    omega
  rw [decodeCmd, if_neg (hne _ (by decide)), if_neg (hne _ (by decide)), if_neg (hne _ (by decide))]

/-- Settles O2: a word is fixed by its number, so the values 0, 1 and 2 are the three codes themselves; the rest is
`decodeCmd_reserved`. -/
theorem commandDecodeComparesAllBits : Obligations.CommandDecodeComparesAllBits := by
  unfold Obligations.CommandDecodeComparesAllBits
  have hcode (w k : Word) (h : w.toNat = k.toNat) : decodeCmd w = decodeCmd k := by rw [BitVec.eq_of_toNat_eq h]
  exact fun w => ⟨hcode w 0#32, hcode w 1#32, hcode w 2#32, decodeCmd_reserved⟩

/-! ## The pixel byte -/

/-- Inside a 32 x 32 block the frame is its two outer rows and its two outer columns (R185). -/
theorem isFrame_iff {ly lx : Nat} (hly : ly < 32) (hlx : lx < 32) :
    isFrame ly lx = true ↔ (ly = 0 ∨ ly = 31) ∨ lx = 0 ∨ lx = 31 := by
  simp only [isFrame, frameWidth, cellSize, Bool.or_eq_true, decide_eq_true_eq]
  omega

/-- The palette index of the left pixel, by the frame rows and the left edge: its column is even, so never 31 (R186). -/
theorem leftIndex_eq {i : ScanIndex} (hvj : i.vj < 32) (hhj : i.hj < 16) (v : Cell) :
    leftIndex i v = if (i.vj = 0 ∨ i.vj = 31) ∨ i.hj = 0 then 0 else v.setWidth 4 := by
  have hframe : isFrame i.vj (2 * i.hj) = true ↔ (i.vj = 0 ∨ i.vj = 31) ∨ i.hj = 0 := by
    rw [isFrame_iff hvj (by omega)]
    omega
  simp only [leftIndex, hframe]

/-- The palette index of the right pixel, by the frame rows and the right edge: its column is odd, so never 0 (R186). -/
theorem rightIndex_eq {i : ScanIndex} (hvj : i.vj < 32) (hhj : i.hj < 16) (v : Cell) :
    rightIndex i v = if (i.vj = 0 ∨ i.vj = 31) ∨ i.hj = 15 then 0 else v.setWidth 4 := by
  have hframe : isFrame i.vj (2 * i.hj + 1) = true ↔ (i.vj = 0 ∨ i.vj = 31) ∨ i.hj = 15 := by
    rw [isFrame_iff hvj (by omega)]
    omega
  simp only [rightIndex, hframe]

/-- Two frame pixels (R91, R200). -/
theorem packNibbles_zero_zero : packNibbles 0#4 0#4 = 0x00 := by decide

/-- A frame pixel left of a cell pixel (R91, R200). -/
theorem packNibbles_zero_cell : ∀ v : Cell, packNibbles 0#4 (v.setWidth 4) = v.setWidth 8 := by decide

/-- A frame pixel right of a cell pixel (R91, R200). -/
theorem packNibbles_cell_zero : ∀ v : Cell, packNibbles (v.setWidth 4) 0#4 = v.setWidth 8 <<< 4 := by decide

/-- Two pixels of one cell (R91, R200). -/
theorem packNibbles_cell_cell :
    ∀ v : Cell, packNibbles (v.setWidth 4) (v.setWidth 4) = v.setWidth 8 ||| v.setWidth 8 <<< 4 := by decide

/-- The per-pixel frame test and packing give the four forms of R91: a frame row, the left edge, the right edge, the
inside. -/
theorem pixelByteAt_eq_form {i : ScanIndex} (hvj : i.vj < 32) (hhj : i.hj < 16) (v : Cell) :
    pixelByteAt i v = pixelByteForm i.vj i.hj v := by
  rw [pixelByteAt, leftIndex_eq hvj hhj, rightIndex_eq hvj hhj, pixelByteForm]
  by_cases hrow : i.vj = 0 ∨ i.vj = 31
  · simp [hrow, packNibbles_zero_zero]
  by_cases hleft : i.hj = 0
  · simp [hrow, hleft, packNibbles_zero_cell]
  by_cases hright : i.hj = 15
  · simp [hrow, hright, packNibbles_cell_zero]
  · simp [hrow, hleft, hright, packNibbles_cell_cell]

/-- The row inside the band is a row of a block (R182). -/
theorem scanIndex_vj_lt (G p : Nat) : (scanIndex G p).vj < 32 := Nat.mod_lt _ (by decide)

/-- The half-column is one of the 16 bytes of a block's row (R182). -/
theorem scanIndex_hj_lt (G p : Nat) : (scanIndex G p).hj < 16 := Nat.mod_lt _ (by decide)

/-- The PIXELS byte at an offset of the phase whose cell is written: the form of R91 that the position selects. -/
theorem pixelByte_eq_form {s : State} {n : Nat} {v : Cell} (hlo : 74 ≤ n) (hhi : n < fileSize (gridG s))
    (hcell : s.grid.read (cellAddr (gridG s) (scanIndex (gridG s) (n - 74))) = some v) :
    pixelByte s n =
      .ok (pixelByteForm (scanIndex (gridG s) (n - 74)).vj (scanIndex (gridG s) (n - 74)).hj v) := by
  have hpos : ¬(n < 74 ∨ fileSize (gridG s) ≤ n) := by omega
  rw [← pixelByteAt_eq_form (scanIndex_vj_lt ..) (scanIndex_hj_lt ..)]
  simp only [pixelByte, if_neg hpos, hcell]

/-- A transfer in the phase PIXELS stays in it until the last byte ends the run (R203, R204). -/
theorem transferByte_pixels {s : State} (b : Byte) (hp : s.phase = .pixels) (hlo : 74 ≤ s.pc.toNat) :
    transferByte b s =
      if s.pc.toNat = fileSize (gridG s) - 1 then
        { s with out := s.out ++ [{ data := b, last := true }], pc := s.pc + 1, state := .done, phase := .none }
      else { s with out := s.out ++ [{ data := b, last := false }], pc := s.pc + 1 } := by
  have hnext : phaseOf (s.pc.toNat + 1) = s.phase := by
    rw [hp, phaseOf, if_neg (by omega), if_neg (by omega), if_neg (by omega)]
  rw [transferByte_eq, hnext]

/-- Settles O16: the phase's step is enabled, its byte is `pixelByte_eq_form`, and the transfer of it is
`transferByte_pixels`. That the cell is not 3 is not needed: the forms hold for every value (log 23). -/
theorem pixelsTransfersItsByte : Obligations.PixelsTransfersItsByte := by
  unfold Obligations.PixelsTransfersItsByte
  intro s v hbusy hp hr G FS y xb hlo hhi hcell _
  have hbyte : pixelByte s s.pc.toNat = .ok (pixelByteForm (y % 32) (xb % 16) v) := pixelByte_eq_form hlo hhi hcell
  calc exec .pixels s = transferIn .pixels (pixelByte s s.pc.toNat) s := rfl
    _ = .next (transferByte (pixelByteForm (y % 32) (xb % 16) v) s) := by rw [hbyte, transferIn_enabled hbusy hp hr]
    _ = _ := congrArg _ (transferByte_pixels _ hp hlo)

end Sys2Proof.Machine
end

section
/-! PROOF. The family of the host's model: what construct checks and returns (R110, R112), and what mask does to each cell
(R113 to R115). -/

namespace Sys2Proof.Machine

/-! ## The checks as propositions -/

/-- `squareShape` says what V2 of R112 asks. -/
theorem squareShape_iff {α : Type} {n : Nat} {m : List (List α)} :
    squareShape n m = true ↔ m.length = n ∧ ∀ row ∈ m, row.length = n := by simp [squareShape]

/-- `squareShape` at a size that is an integer above 0. -/
theorem squareShape_toNat_iff {α : Type} {size : Int} (hpos : 0 < size) {m : List (List α)} :
    squareShape size.toNat m = true ↔ (m.length : Int) = size ∧ ∀ row ∈ m, (row.length : Int) = size := by
  have hlen (k : Nat) : k = size.toNat ↔ (k : Int) = size := by omega
  simp only [squareShape_iff, hlen]

/-- `cellsUpTo` says what V3 and V4 of R112 ask. -/
theorem cellsUpTo_iff {top : Int} {m : List (List Int)} :
    cellsUpTo top m = true ↔ ∀ row ∈ m, ∀ v ∈ row, 0 ≤ v ∧ v ≤ top := by simp [cellsUpTo]

/-- `colourInRange` says what V5 of R112 asks. -/
theorem colourInRange_iff {c : Int} : colourInRange c = true ↔ 0 ≤ c ∧ c ≤ 0xFFFFFF := by simp [colourInRange]

/-- A matrix of a model: square, with no cell above its bound (R110). -/
theorem matrixValid_iff {n top : Nat} {m : List (List Nat)} :
    matrixValid n top m = true ↔ squareShape n m = true ∧ ∀ row ∈ m, ∀ v ∈ row, v ≤ top := by simp [matrixValid]

/-- What a valid model holds (R110). -/
theorem GridModel.valid_iff {m : GridModel} :
    m.valid = true ↔ 0 < m.gridSize ∧ matrixValid m.gridSize 1 m.parameter = true
      ∧ matrixValid m.gridSize 2 m.pattern = true
      ∧ m.color0 ≤ 0xFFFFFF ∧ m.color1 ≤ 0xFFFFFF ∧ m.color2 ≤ 0xFFFFFF := by
  simp [GridModel.valid, and_assoc]

/-! ## The integers given, as naturals -/

/-- Taking the cells as naturals keeps the shape. -/
theorem squareShape_toNats {n : Nat} {m : List (List Int)} : squareShape n (toNats m) = squareShape n m := by
  simp [squareShape, toNats, List.all_map, Function.comp_def]

/-- A checked matrix of integers becomes a matrix of a model (R110, R112). -/
theorem matrixValid_toNats {n top : Nat} {m : List (List Int)} (hshape : squareShape n m = true)
    (hcells : cellsUpTo top m = true) : matrixValid n top (toNats m) = true := by
  rw [matrixValid_iff, squareShape_toNats]
  refine ⟨hshape, ?_⟩
  simp only [toNats, List.forall_mem_map]
  intro row hrow v hv
  obtain ⟨-, hle⟩ := cellsUpTo_iff.mp hcells row hrow v hv
  omega

/-- No value of a checked matrix is lost when its cells are taken as naturals (R112). -/
theorem map_ofNat_toNats {top : Int} {m : List (List Int)} (hcells : cellsUpTo top m = true) :
    (toNats m).map (fun row => row.map Int.ofNat) = m := by
  have hcell (row : List Int) (hrow : row ∈ m) : (row.map Int.toNat).map Int.ofNat = row := by
    rw [List.map_map]
    exact (List.map_congr_left fun v hv => Int.toNat_of_nonneg (cellsUpTo_iff.mp hcells row hrow v hv).1).trans
      (List.map_id row)
  calc (toNats m).map (fun row => row.map Int.ofNat)
    _ = m.map fun row => (row.map Int.toNat).map Int.ofNat := by rw [toNats, List.map_map]; rfl
    _ = m.map id := List.map_congr_left hcell
    _ = m := List.map_id m

/-- A checked colour code loses nothing as a natural (R112). -/
theorem toNat_of_colourInRange {c : Int} (h : colourInRange c = true) : (c.toNat : Int) = c :=
  Int.toNat_of_nonneg (colourInRange_iff.mp h).1

/-- A checked colour code is one of a model (R110, R112). -/
theorem toNat_le_of_colourInRange {c : Int} (h : colourInRange c = true) : c.toNat ≤ 0xFFFFFF :=
  Int.toNat_le.mpr (colourInRange_iff.mp h).2

/-! ## construct, clause by clause (R112) -/

/-- The values given, taken as the naturals a model holds: what construct returns when every check passes
(`construct_of_checks`). -/
def modelOfValues (c0 c1 c2 : Int) (r : RawModel) : GridModel :=
  { color0 := c0.toNat, color1 := c1.toNat, color2 := c2.toNat, gridSize := r.gridSize.toNat,
    parameter := toNats r.parameter, pattern := toNats r.pattern }

section
variable {r : RawModel}

/-- V1 comes before every other check (R112). -/
theorem construct_of_gridSize_nonpos (h : r.gridSize ≤ 0) : construct r = .error .gridSizeNotPositive := if_pos h

/-- V2 comes next, one answer for either matrix (R112). -/
theorem construct_of_not_square (hpos : 0 < r.gridSize)
    (h : ¬(squareShape r.gridSize.toNat r.parameter = true ∧ squareShape r.gridSize.toNat r.pattern = true)) :
    construct r = .error .matrixShape := by
  rw [construct, if_neg (by omega)]
  by_cases hprm : squareShape r.gridSize.toNat r.parameter = true
  · have hpat : ¬squareShape r.gridSize.toNat r.pattern = true := fun hpat => h ⟨hprm, hpat⟩
    simp [hprm, hpat]
  · simp [hprm]

variable (hpos : 0 < r.gridSize) (hprm : squareShape r.gridSize.toNat r.parameter = true)
  (hpat : squareShape r.gridSize.toNat r.pattern = true)
include hpos hprm hpat

/-- V3 comes after both shapes (R112). -/
theorem construct_of_not_parameterDomain (h : ¬cellsUpTo 1 r.parameter = true) :
    construct r = .error .parameterDomain := by simp [construct, hpos.not_ge, hprm, hpat, h]

/-- V4 comes after V3 (R112). -/
theorem construct_of_not_patternDomain (hdom : cellsUpTo 1 r.parameter = true) (h : ¬cellsUpTo 2 r.pattern = true) :
    construct r = .error .patternDomain := by simp [construct, hpos.not_ge, hprm, hpat, hdom, h]

variable {c0 c1 c2 : Int} (hdom : cellsUpTo 1 r.parameter = true) (hpdom : cellsUpTo 2 r.pattern = true)
include hdom hpdom

/-- V5 comes last; three colours are given (R112, log 24). -/
theorem construct_of_not_colourInRange (hcolors : r.colors = [c0, c1, c2])
    (h : ¬(colourInRange c0 = true ∧ colourInRange c1 = true ∧ colourInRange c2 = true)) :
    construct r = .error .colorRange := by
  simp [construct, hpos.not_ge, hprm, hpat, hdom, hpdom, hcolors, and_assoc, h]

/-- With every check passed construct returns the values given (R112). -/
theorem construct_of_checks (hcolors : r.colors = [c0, c1, c2])
    (h : colourInRange c0 = true ∧ colourInRange c1 = true ∧ colourInRange c2 = true) :
    construct r = .ok (modelOfValues c0 c1 c2 r) := by
  simp [construct, modelOfValues, hpos.not_ge, hprm, hpat, hdom, hpdom, hcolors, h]

/-- Values that pass every check make a valid model (R110, R112). -/
theorem modelOfValues_valid
    (h : colourInRange c0 = true ∧ colourInRange c1 = true ∧ colourInRange c2 = true) :
    (modelOfValues c0 c1 c2 r).valid = true := by
  obtain ⟨h0, h1, h2⟩ := h
  exact GridModel.valid_iff.mpr ⟨Int.pos_iff_toNat_pos.mp hpos, matrixValid_toNats hprm hdom,
    matrixValid_toNats hpat hpdom, toNat_le_of_colourInRange h0, toNat_le_of_colourInRange h1,
    toNat_le_of_colourInRange h2⟩

end

/-- Settles O51: each check is the proposition of its clause, `construct` answers it clause by clause, and the naturals of
the model are the integers given. -/
theorem constructChecksInOrder : Obligations.ConstructChecksInOrder := by
  unfold Obligations.ConstructChecksInOrder
  intro c0 c1 c2 size prm pat r square within colour
  have hsquare (hpos : 0 < size) (m : List (List Int)) : square m ↔ squareShape size.toNat m = true :=
    (squareShape_toNat_iff hpos).symm
  have hwithin (top : Int) (m : List (List Int)) : within top m ↔ cellsUpTo top m = true := cellsUpTo_iff.symm
  have hcolour (c : Int) : colour c ↔ colourInRange c = true := colourInRange_iff.symm
  refine ⟨fun hneg => construct_of_gridSize_nonpos hneg, fun hpos => ?_, fun hpos => ?_, fun hpos => ?_, fun hpos => ?_,
    fun hpos => ?_⟩ <;> simp only [hsquare hpos, hwithin, hcolour]
  · exact construct_of_not_square (r := r) hpos
  · exact construct_of_not_parameterDomain (r := r) hpos
  · exact construct_of_not_patternDomain (r := r) hpos
  · exact fun hprm hpat hdom hpdom => construct_of_not_colourInRange hpos hprm hpat hdom hpdom rfl
  · intro hprm hpat hdom hpdom hcol
    have hmodel : construct r = .ok (modelOfValues c0 c1 c2 r) := construct_of_checks hpos hprm hpat hdom hpdom rfl hcol
    have hvalid := modelOfValues_valid (r := r) hpos hprm hpat hdom hpdom hcol
    obtain ⟨h0, h1, h2⟩ := hcol
    exact ⟨_, hmodel, hvalid, Int.toNat_of_nonneg hpos.le, toNat_of_colourInRange h0, toNat_of_colourInRange h1,
      toNat_of_colourInRange h2, map_ofNat_toNats hdom, map_ofNat_toNats hpdom⟩

/-! ## mask (R113) -/

/-- An element of a `zipWith` is the function's value at an element of each list. -/
theorem exists_of_mem_zipWith {α β γ : Type} {f : α → β → γ} {as : List α} {bs : List β} {c : γ}
    (h : c ∈ List.zipWith f as bs) : ∃ a ∈ as, ∃ b ∈ bs, f a b = c := by
  rw [← List.map_uncurry_zip_eq_zipWith] at h
  obtain ⟨⟨a, b⟩, hmem, rfl⟩ := List.mem_map.mp h
  obtain ⟨ha, hb⟩ := List.of_mem_zip hmem
  exact ⟨a, ha, b, hb, rfl⟩

/-- Where `f · b` is idempotent for each `b` of a list, so is zipping with that list (the scheme of R115). -/
theorem zipWith_zipWith_of_idem {α β : Type} {f : α → β → α} {bs : List β}
    (h : ∀ b ∈ bs, ∀ a, f (f a b) b = f a b) (as : List α) :
    List.zipWith f (List.zipWith f as bs) bs = List.zipWith f as bs := by
  induction bs generalizing as with
  | nil => simp
  | cons b bs ih =>
    obtain ⟨hb, hbs⟩ := List.forall_mem_cons.mp h
    cases as with
    | nil => rfl
    | cons a as => simp only [List.zipWith_cons_cons, hb, ih hbs]

/-- A square matrix has a cell at every index below its size (R110). -/
theorem exists_entry_of_matrixValid {n top i j : Nat} {m : List (List Nat)} (h : matrixValid n top m = true)
    (hi : i < n) (hj : j < n) : ∃ v, entry m i j = some v := by
  obtain ⟨hshape, -⟩ := matrixValid_iff.mp h
  obtain ⟨hrows, hcols⟩ := squareShape_iff.mp hshape
  have hi' : i < m.length := hrows ▸ hi
  have hj' : j < m[i].length := hcols m[i] (List.getElem_mem hi') ▸ hj
  exact ⟨m[i][j], by simp [entry, hi', hj']⟩

/-- The masked cell is the product of the two cells (R113). -/
theorem entry_maskedPattern {m : GridModel} {i j v q : Nat} (hv : entry m.pattern i j = some v)
    (hq : entry m.parameter i j = some q) : entry (maskedPattern m) i j = some (v * q) := by
  obtain ⟨vs, hvs, hv⟩ := Option.bind_eq_some_iff.mp hv
  obtain ⟨qs, hqs, hq⟩ := Option.bind_eq_some_iff.mp hq
  simp [entry, maskedPattern, List.getElem?_zipWith, hvs, hqs, hv, hq]

/-- The masked pattern is again a matrix of the size with no cell above 2: each cell is a product `v * q` with `v ≤ 2` and
`q ≤ 1` (R113). -/
theorem matrixValid_maskedPattern {m : GridModel} {n : Nat} (hpat : matrixValid n 2 m.pattern = true)
    (hprm : matrixValid n 1 m.parameter = true) : matrixValid n 2 (maskedPattern m) = true := by
  rw [matrixValid_iff, squareShape_iff] at *
  obtain ⟨⟨hpatRows, hpatCols⟩, hpatCells⟩ := hpat
  obtain ⟨⟨hprmRows, hprmCols⟩, hprmCells⟩ := hprm
  refine ⟨⟨by simp [maskedPattern, hpatRows, hprmRows], fun row hrow => ?_⟩, fun row hrow c hc => ?_⟩
  · obtain ⟨vs, hvs, qs, hqs, rfl⟩ := exists_of_mem_zipWith hrow
    simp [hpatCols vs hvs, hprmCols qs hqs]
  · obtain ⟨vs, hvs, qs, hqs, rfl⟩ := exists_of_mem_zipWith hrow
    obtain ⟨v, hv, q, hq, rfl⟩ := exists_of_mem_zipWith hc
    exact Nat.mul_le_mul (hpatCells vs hvs v hv) (hprmCells qs hqs q hq)

/-- mask answers the model with the masked pattern, exactly in the domain of `parameter` (R113, R116). -/
theorem mask_eq_some_iff {m k : GridModel} :
    mask m = some k ↔ (∀ row ∈ m.parameter, ∀ q ∈ row, q ≤ 1) ∧ { m with pattern := maskedPattern m } = k := by
  simp [mask]

/-- A factor 0 or 1 multiplies in once: `p·q·q = p·q` (R115). -/
theorem mul_mul_self_of_le_one {q : Nat} (hq : q ≤ 1) (p : Nat) : p * q * q = p * q := by
  obtain rfl | rfl := Nat.le_one_iff_eq_zero_or_eq_one.mp hq <;> simp

/-- Inside the domain of `parameter`, masking a masked pattern changes nothing (R115). -/
theorem maskedPattern_idem {m : GridModel} (h : ∀ row ∈ m.parameter, ∀ q ∈ row, q ≤ 1) :
    maskedPattern { m with pattern := maskedPattern m } = maskedPattern m :=
  zipWith_zipWith_of_idem
    (fun qs hqs vs => zipWith_zipWith_of_idem (fun q hq p => mul_mul_self_of_le_one (h qs hqs q hq) p) vs) m.pattern

/-- Masking what mask answered answers the same (R115). -/
theorem mask_idem {m k : GridModel} (h : mask m = some k) : mask k = some k := by
  obtain ⟨hdom, rfl⟩ := mask_eq_some_iff.mp h
  exact mask_eq_some_iff.mpr ⟨hdom, by rw [maskedPattern_idem hdom]⟩

/-- mask has an answer for every valid model, a valid one (R113). -/
theorem mask_of_valid {m : GridModel} (hm : m.valid = true) :
    mask m = some { m with pattern := maskedPattern m }
      ∧ GridModel.valid { m with pattern := maskedPattern m } = true := by
  obtain ⟨hsize, hprm, hpat, hcolours⟩ := GridModel.valid_iff.mp hm
  obtain ⟨-, hdom⟩ := matrixValid_iff.mp hprm
  exact ⟨mask_eq_some_iff.mpr ⟨hdom, rfl⟩,
    GridModel.valid_iff.mpr ⟨hsize, hprm, matrixValid_maskedPattern hpat hprm, hcolours⟩⟩

/-- Settles O52: mask answers a valid model by `mask_of_valid`, the same again by `mask_idem`, and its cells are
`entry_maskedPattern`. -/
theorem maskKeepsOrZeroesEachCell : Obligations.MaskKeepsOrZeroesEachCell := by
  unfold Obligations.MaskKeepsOrZeroesEachCell
  intro m hm
  obtain ⟨hmask, hvalid⟩ := mask_of_valid hm
  refine ⟨_, hmask, hvalid, mask_idem hmask, rfl, fun i j hi hj => ?_⟩
  obtain ⟨-, hprm, hpat, -⟩ := GridModel.valid_iff.mp hm
  obtain ⟨v, hv⟩ := exists_entry_of_matrixValid hpat hi hj
  obtain ⟨q, hq⟩ := exists_entry_of_matrixValid hprm hi hj
  have hk := entry_maskedPattern hv hq
  exact ⟨v, q, hv, hq, hk, fun h0 => by simpa [h0] using hk, fun h1 => by simpa [h1] using hk⟩

end Sys2Proof.Machine
end

section
/-! PROOF. The family of the commands and the host's accesses: what each command does (R130 to R133), what a register read
returns (R136, R138), and which writes are stored, dropped or ignored (R135, R137 to R139). -/

namespace Sys2Proof.Machine

/-! ## Writes to CMD -/

/-- A write to CMD as a step (R28, R134). -/
theorem step_wr_cmd {s : State} {w : Word} {rest : List Input} (h : s.inputs = .host (.wr 0x000#12 w) :: rest) :
    step s = writeCmd w { s with inputs := rest } := by
  rw [step_host h, hostStep, hostWr, if_pos rfl]

/-- A command word that decodes runs its command (R82). -/
theorem writeCmd_of_decode {w : Word} {i : Instr} (h : decodeCmd w = .ok i) (s : State) : writeCmd w s = exec i s := by
  rw [writeCmd, h]

/-- A reserved command word is not executed (R133). -/
theorem writeCmd_of_reserved {w : Word} (h : 3 ≤ w.toNat) (s : State) : writeCmd w s = .next (setBadcmd s) := by
  rw [writeCmd, decodeCmd_reserved h, commandNotExecuted]

/-- START while BUSY is not executed (R133). -/
theorem exec_start_of_busy {s : State} (hb : s.state = .busy) : exec .start s = .next (setBadcmd s) := if_pos hb

/-- CLEAR while BUSY is not executed (R133). -/
theorem exec_clear_of_busy {s : State} (hb : s.state = .busy) : exec .clear s = .next (setBadcmd s) := if_pos hb

/-- CLEAR outside BUSY returns to IDLE (R132). -/
theorem exec_clear_of_not_busy {s : State} (hb : s.state ≠ .busy) : exec .clear s = .next (returnToIdle s) := if_neg hb

/-- Settles O7: NOP's meaning is the state itself, and the word 0 decodes to NOP. -/
theorem nopChangesNothing : Obligations.NopChangesNothing := by
  unfold Obligations.NopChangesNothing
  exact fun s => ⟨rfl, fun rest h => (step_wr_cmd h).trans (writeCmd_of_decode (i := .nop) rfl _)⟩

/-- Settles O9: outside BUSY the state reached is `returnToIdle`, which is IDLE and so drives neither output. -/
theorem clearReturnsToIdle : Obligations.ClearReturnsToIdle := by
  unfold Obligations.ClearReturnsToIdle
  exact fun s => ⟨fun hb => ⟨returnToIdle s, exec_clear_of_not_busy hb, rfl, rfl, rfl⟩, exec_clear_of_busy⟩

/-- Settles O10: a reserved word decodes to no command; the words 1 and 2 decode to START and CLEAR, which BUSY keeps from
being executed. -/
theorem commandsNotExecutedOnlySetBadcmd : Obligations.CommandsNotExecutedOnlySetBadcmd := by
  unfold Obligations.CommandsNotExecutedOnlySetBadcmd
  intro s w rest h hw
  rw [step_wr_cmd h]
  rcases hw with hres | ⟨hb, hstart | hclear⟩
  · exact writeCmd_of_reserved hres _
  · obtain rfl : w = 1#32 := BitVec.eq_of_toNat_eq hstart
    exact (writeCmd_of_decode (i := .start) rfl _).trans (exec_start_of_busy hb)
  · obtain rfl : w = 2#32 := BitVec.eq_of_toNat_eq hclear
    exact (writeCmd_of_decode (i := .clear) rfl _).trans (exec_clear_of_busy hb)

/-! ## START -/

/-- A colour register is out of range when its number needs more than 24 bits (R30). -/
theorem colourOutOfRange_iff {c : Word} : colourOutOfRange c = true ↔ 0x1000000 ≤ c.toNat := by
  have hc := c.isLt
  simp only [colourOutOfRange, bne_iff_ne, ne_eq, ← BitVec.toNat_inj, BitVec.extractLsb'_toNat,
    Nat.shiftRight_eq_div_pow, BitVec.ofNat_eq_ofNat, BitVec.toNat_ofNat]
  omega

/-- The lowest colour register that is out of range, by the registers' numbers (R131 check 2). -/
theorem firstBadColour_eq (s : State) :
    firstBadColour s =
      if 0x1000000 ≤ s.color0.toNat then some 0
      else if 0x1000000 ≤ s.color1.toNat then some 1
      else if 0x1000000 ≤ s.color2.toNat then some 2
      else none := by
  simp only [firstBadColour, colourOutOfRange_iff]

/-- With every colour register in range there is no bad colour (R131 check 2). -/
theorem firstBadColour_eq_none {s : State} (h0 : ¬0x1000000 ≤ s.color0.toNat) (h1 : ¬0x1000000 ≤ s.color1.toNat)
    (h2 : ¬0x1000000 ≤ s.color2.toNat) : firstBadColour s = none := by
  rw [firstBadColour_eq, if_neg h0, if_neg h1, if_neg h2]

section
variable {s : State}

/-- Check 1 of START (R131). -/
theorem startCheck_of_size_zero (hG : gridG s = 0) : startCheck s = some (.valGridSize, s.gridSize) := if_pos hG

/-- Check 2 of START comes after check 1 (R131). -/
theorem startCheck_of_badColour {k : Word} (hG : gridG s ≠ 0) (hk : firstBadColour s = some k) :
    startCheck s = some (.valColor, k) := by
  rw [startCheck, if_neg hG, hk]

/-- Check 3 of START comes after check 2; a side above 16 bits excludes a size of 0 by itself (R131). -/
theorem startCheck_of_side (hc : firstBadColour s = none) (hS : maxSide < 32 * gridG s) :
    startCheck s = some (.encGeometry, s.gridSize) := by
  rw [startCheck, if_neg (by omega), hc]
  exact if_pos hS

/-- Check 4 of START comes last (R131). -/
theorem startCheck_of_capacity (hG : gridG s ≠ 0) (hc : firstBadColour s = none) (hS : 32 * gridG s ≤ maxSide)
    (hM : s.cfg.maxGrid < gridG s) : startCheck s = some (.encCapacity, s.gridSize) := by
  rw [startCheck, if_neg hG, hc]
  exact (if_neg hS.not_gt).trans (if_pos hM)

/-- With every bound met all four checks of START pass (R131). -/
theorem startCheck_of_accepted (hG : gridG s ≠ 0) (hc : firstBadColour s = none) (hS : 32 * gridG s ≤ maxSide)
    (hM : gridG s ≤ s.cfg.maxGrid) : startCheck s = none :=
  startCheck_eq_none.mpr ⟨by simp [acceptedSize, hG, hS, hM], hc⟩

variable (hb : s.state ≠ .busy)
include hb

/-- An executed START whose check fires enters ERROR with that code (R131, R226). -/
theorem exec_start_of_check {code : ErrCode} {info : Word} (h : startCheck s = some (code, info)) :
    exec .start s = .next (raiseError code info (forgetRun s)) := by
  rw [exec, execStart, if_neg hb, h]

/-- An executed START whose checks all pass begins the run (R131). -/
theorem exec_start_of_no_check (h : startCheck s = none) :
    exec .start s = .next { forgetRun s with state := .busy, phase := .validate } := by
  rw [exec, execStart, if_neg hb, h]

end

/-- Settles O8: each clause says which check of `startCheck` fires first, or that none does, and `exec_start_of_check` and
`exec_start_of_no_check` say what START then answers. -/
theorem startChecksThenBeginsTheRun : Obligations.StartChecksThenBeginsTheRun := by
  unfold Obligations.StartChecksThenBeginsTheRun
  intro s hb G bad failed
  refine ⟨?size, ?colour0, ?colour1, ?colour2, ?side, ?capacity, ?accepted⟩
  case size => exact fun hG => exec_start_of_check hb (startCheck_of_size_zero hG)
  case colour0 =>
    intro hG h0
    exact exec_start_of_check hb (startCheck_of_badColour hG (by rw [firstBadColour_eq, if_pos h0]))
  case colour1 =>
    intro hG h0 h1
    exact exec_start_of_check hb (startCheck_of_badColour hG (by rw [firstBadColour_eq, if_neg h0, if_pos h1]))
  case colour2 =>
    intro hG h0 h1 h2
    exact exec_start_of_check hb
      (startCheck_of_badColour hG (by rw [firstBadColour_eq, if_neg h0, if_neg h1, if_pos h2]))
  case side =>
    intro h0 h1 h2 hS
    exact exec_start_of_check hb (startCheck_of_side (firstBadColour_eq_none h0 h1 h2) hS)
  case capacity =>
    intro h0 h1 h2 hG hS hM
    exact exec_start_of_check hb (startCheck_of_capacity hG (firstBadColour_eq_none h0 h1 h2) hS hM)
  case accepted =>
    intro h0 h1 h2 hG hS hM
    exact exec_start_of_no_check hb (startCheck_of_accepted hG (firstBadColour_eq_none h0 h1 h2) hS hM)

/-! ## Register reads -/

/-- An offset outside the eight registers or misaligned is no register's offset (R138). -/
theorem ne_of_unmapped {o k : RegOffset} (h : 0x20 ≤ o.toNat ∨ o.toNat % 4 ≠ 0)
    (hk : k.toNat < 0x20 ∧ k.toNat % 4 = 0) : o ≠ k := by
  rintro rfl
  omega

/-- A read of an unmapped or misaligned offset returns 0 (R138). -/
theorem regValue_unmapped {o : RegOffset} (h : 0x20 ≤ o.toNat ∨ o.toNat % 4 ≠ 0) (s : State) : regValue s o = 0 := by
  have hne (k : RegOffset) (hk : k.toNat < 0x20 ∧ k.toNat % 4 = 0) : o ≠ k := ne_of_unmapped h hk
  rw [regValue, if_neg (hne _ (by decide)), if_neg (hne _ (by decide)), if_neg (hne _ (by decide)),
    if_neg (hne _ (by decide)), if_neg (hne _ (by decide)), if_neg (hne _ (by decide)), if_neg (hne _ (by decide)),
    if_neg (hne _ (by decide))]

/-- Settles O21: RD answers `regValue` (`step_rd`); an offset is fixed by its number, so the eight numbers are the eight
registers' own offsets, and every other offset is `regValue_unmapped`. -/
theorem readReturnsTheAddressedRegister : Obligations.ReadReturnsTheAddressedRegister := by
  unfold Obligations.ReadReturnsTheAddressedRegister
  intro s o rest h
  have hreg (k : RegOffset) (hk : o.toNat = k.toNat) : regValue s o = regValue s k := by rw [BitVec.eq_of_toNat_eq hk]
  exact ⟨regValue s o, step_rd h, hreg 0x000#12, hreg 0x004#12, hreg 0x008#12, hreg 0x00C#12, hreg 0x010#12,
    hreg 0x014#12, hreg 0x018#12, hreg 0x01C#12, fun ho => regValue_unmapped ho s⟩

/-! ## Register writes -/

/-- The offsets of the configuration registers as numbers (R135). -/
theorem isConfigOffset_iff {o : RegOffset} :
    isConfigOffset o ↔ o.toNat = 0x08 ∨ o.toNat = 0x0C ∨ o.toNat = 0x10 ∨ o.toNat = 0x14 := by
  simp only [isConfigOffset, ← BitVec.toNat_inj, BitVec.reduceToNat]

/-- A configuration write while BUSY is dropped with BUSYWR (R135). -/
theorem hostWr_config_of_busy {o : RegOffset} {d : Word} {s : State} (hcfg : isConfigOffset o) (hb : s.state = .busy) :
    hostWr o d s = .next (setBusywr s) := by
  rcases hcfg with rfl | rfl | rfl | rfl <;> simp [hostWr, writeConfig, hb]

/-- A configuration write outside BUSY stores into the register that `storesConfig` names (R135). -/
theorem hostWr_of_storesConfig {o : RegOffset} {d : Word} {s t : State} (hb : s.state ≠ .busy)
    (h : storesConfig o d s t) : hostWr o d s = .next t := by
  rcases h with ⟨rfl, rfl⟩ | ⟨rfl, rfl⟩ | ⟨rfl, rfl⟩ | ⟨rfl, rfl⟩ <;> simp [hostWr, writeConfig, hb]

/-- A stored configuration write as a step: the input is taken and the one register changes (R135). -/
theorem step_wr_of_storesConfig {s t : State} {o : RegOffset} {d : Word} {rest : List Input}
    (h : s.inputs = .host (.wr o d) :: rest) (hb : s.state ≠ .busy) (ht : storesConfig o d { s with inputs := rest } t) :
    step s = .next t :=
  (step_host h).trans (hostWr_of_storesConfig (s := { s with inputs := rest }) hb ht)

/-- Settles O22: while BUSY by `hostWr_config_of_busy`, otherwise each offset is one case of `storesConfig`. -/
theorem configurationWriteIsStoredOrDropped : Obligations.ConfigurationWriteIsStoredOrDropped := by
  unfold Obligations.ConfigurationWriteIsStoredOrDropped
  intro s o d rest h
  have hoff {k : RegOffset} (hk : o.toNat = k.toNat) : o = k := BitVec.eq_of_toNat_eq hk
  refine ⟨fun hcfg hb => (step_host h).trans (hostWr_config_of_busy hcfg hb), fun hb => ⟨?_, ?_, ?_, ?_⟩⟩
  · exact fun ho => step_wr_of_storesConfig h hb (.inl ⟨hoff ho, rfl⟩)
  · exact fun ho => step_wr_of_storesConfig h hb (.inr (.inl ⟨hoff ho, rfl⟩))
  · exact fun ho => step_wr_of_storesConfig h hb (.inr (.inr (.inl ⟨hoff ho, rfl⟩)))
  · exact fun ho => step_wr_of_storesConfig h hb (.inr (.inr (.inr ⟨hoff ho, rfl⟩)))

/-- Settles O23: the offsets listed are neither CMD's nor a configuration register's, so the write is one of the ignored ones;
the reads are `regValue_unmapped`. -/
theorem readOnlyAndUnmappedWritesAreIgnored : Obligations.ReadOnlyAndUnmappedWritesAreIgnored := by
  unfold Obligations.ReadOnlyAndUnmappedWritesAreIgnored
  intro s o rest
  refine ⟨fun ho d h => step_wr_ignored h ?notCmd ?notConfig, fun ho h => ?read⟩
  case notCmd =>
    rintro rfl
    exact absurd ho (by decide)
  case notConfig =>
    rw [isConfigOffset_iff]
    omega
  case read => rw [step_rd h, regValue_unmapped ho]

/-! ## GRID writes -/

/-- A GW outside BUSY to an existing cell writes it (R139). -/
theorem hostGw_of_cell {a : GridAddr} {v : Cell} {s : State} (hb : s.state ≠ .busy) (ha : a.toNat < cellCount s.cfg) :
    hostGw a v s = .next { s with grid := s.grid.write a.toNat v } := by
  rw [hostGw, if_neg hb, if_pos ha]

/-- A GW outside BUSY where there is no such cell is ignored (R139). -/
theorem hostGw_of_no_cell {a : GridAddr} {v : Cell} {s : State} (hb : s.state ≠ .busy)
    (ha : cellCount s.cfg ≤ a.toNat) : hostGw a v s = .next s := by
  rw [hostGw, if_neg hb, if_neg ha.not_gt]

/-- Settles O24: GW by its three cases; the cell written and the other cells are the two read laws of `Grid.write`. -/
theorem gridWriteWritesOneCell : Obligations.GridWriteWritesOneCell := by
  unfold Obligations.GridWriteWritesOneCell
  intro s a v rest h
  rw [step_host h, hostStep]
  exact ⟨fun hb => hostGw_of_busy hb,
    fun hb ha => ⟨s.grid.write a.toNat v, hostGw_of_cell hb ha, Grid.read_write_same _ _ _,
      fun b hne => Grid.read_write_other _ _ b v hne⟩,
    fun hb ha => hostGw_of_no_cell hb ha⟩

end Sys2Proof.Machine
end

section
/-! PROOF. The family of bmp_header_builder: what the phases FILE_HEADER (R151) and INFO_HEADER (R156) hand over and where
they go next (R203). -/

namespace Sys2Proof.Machine

/-! ## A transfer inside the headers -/

/-- Every header byte lies before the last byte of the file, whatever the size: 74 bytes come before the pixels (R150). -/
theorem header_offset_ne_last {n : Nat} (G : Nat) (h : n < 26) : n ≠ fileSize G - 1 := by
  unfold fileSize
  omega

/-- An enabled phase at a header offset hands over its byte without the mark, and goes to the phase of the next offset
(R203). -/
theorem transferIn_header {p : Phase} {b : Byte} {s : State} (hs : s.state = .busy) (hp : s.phase = p)
    (hr : s.outReady = true) (h : s.pc.toNat < 26) :
    transferIn p (.ok b) s =
      .next { s with out := s.out ++ [{ data := b, last := false }], pc := s.pc + 1,
                     phase := phaseOf (s.pc.toNat + 1) } := by
  rw [transferIn_enabled hs hp hr, transferByte_eq, if_neg (header_offset_ne_last _ h)]

/-- The file header's offsets are followed by its own, and the last one by the info header's (R25). -/
theorem phaseOf_succ_fileHeader {n : Nat} (h : n < 14) :
    phaseOf (n + 1) = if n = 13 then .infoHeader else .fileHeader := by
  unfold phaseOf
  by_cases hlast : n = 13
  · rw [if_pos hlast, if_neg (by omega), if_pos (by omega)]
  · rw [if_neg hlast, if_pos (by omega)]

/-- The info header's offsets are followed by its own, and the last one by the palette's (R25). -/
theorem phaseOf_succ_infoHeader {n : Nat} (hlo : 14 ≤ n) (hhi : n < 26) :
    phaseOf (n + 1) = if n = 25 then .palette else .infoHeader := by
  unfold phaseOf
  rw [if_neg (by omega)]
  by_cases hlast : n = 25
  · rw [if_pos hlast, if_neg (by omega), if_pos (by omega)]
  · rw [if_neg hlast, if_pos (by omega)]

/-! ## The bytes of the two tables -/

/-- The file header byte by byte: its constants are the little-endian 0 and 74 (R151 to R155). -/
theorem fileHeaderBytes_eq (c : Config) (G : Nat) :
    fileHeaderBytes c G =
      [c.signature0, c.signature1, byteOf (fileSize G) 0, byteOf (fileSize G) 1, byteOf (fileSize G) 2,
        byteOf (fileSize G) 3, 0, 0, 0, 0, 0x4A, 0, 0, 0] := rfl

/-- The info header byte by byte: its constants are the little-endian 12, 1 and 4 (R156 to R160). -/
theorem infoHeaderBytes_eq (G : Nat) :
    infoHeaderBytes G =
      [0x0C, 0, 0, 0, byteOf (imageSide G) 0, byteOf (imageSide G) 1, byteOf (imageSide G) 0, byteOf (imageSide G) 1,
        1, 0, 4, 0] := rfl

/-- The FILE_HEADER phase offers the table's byte at the file offset (R151). -/
theorem fileHeaderByte_of_getElem? {s : State} {n : Nat} {b : Byte}
    (h : (fileHeaderBytes s.cfg (gridG s))[n]? = some b) : fileHeaderByte s n = .ok b := by
  rw [fileHeaderByte, h, tableByte]

/-- The INFO_HEADER phase offers the table's byte, counted from file offset 14 (R156). -/
theorem infoHeaderByte_of_getElem? {s : State} {n : Nat} {b : Byte} (hn : 14 ≤ n)
    (h : (infoHeaderBytes (gridG s))[n - 14]? = some b) : infoHeaderByte s n = .ok b := by
  rw [infoHeaderByte, if_neg hn.not_gt, h, tableByte]

/-! ## The two phases -/

/-- Settles O13: the byte is the phase's own (`fileHeaderByte_of_getElem?`), so `pc` is below 14; the transfer of it is
`transferIn_header`, and the phase it goes to is `phaseOf_succ_fileHeader`. -/
theorem fileHeaderTransfersItsByte : Obligations.FileHeaderTransfersItsByte := by
  unfold Obligations.FileHeaderTransfersItsByte
  intro s b hbusy hp hr FS hb
  have hbyte : fileHeaderByte s s.pc.toNat = .ok b :=
    fileHeaderByte_of_getElem? (by rw [fileHeaderBytes_eq]; exact hb)
  obtain ⟨hpc, -⟩ := fileHeaderByte_ok hbyte
  calc exec .fileHeader s = transferIn .fileHeader (fileHeaderByte s s.pc.toNat) s := rfl
    _ = _ := by rw [hbyte, transferIn_header hbusy hp hr (by omega), phaseOf_succ_fileHeader hpc]

/-- Settles O14: the byte is the phase's own (`infoHeaderByte_of_getElem?`), so `pc` is below 26; the transfer of it is
`transferIn_header`, and the phase it goes to is `phaseOf_succ_infoHeader`. -/
theorem infoHeaderTransfersItsByte : Obligations.InfoHeaderTransfersItsByte := by
  unfold Obligations.InfoHeaderTransfersItsByte
  intro s b hbusy hp hr hlo S hb
  have hbyte : infoHeaderByte s s.pc.toNat = .ok b :=
    infoHeaderByte_of_getElem? hlo (by rw [infoHeaderBytes_eq]; exact hb)
  obtain ⟨-, hhi, -⟩ := infoHeaderByte_ok hbyte
  calc exec .infoHeader s = transferIn .infoHeader (infoHeaderByte s s.pc.toNat) s := rfl
    _ = _ := by rw [hbyte, transferIn_header hbusy hp hr hhi, phaseOf_succ_infoHeader hlo hhi]

end Sys2Proof.Machine
end

section
/-! PROOF. The family of palette_formatter: the closed form of the palette bytes against the 16 entries (R170, R173), and what
the phase PALETTE hands over (R170, R203). -/

namespace Sys2Proof.Machine

/-! ## The slots and their entries -/

/-- The slots as numbers: the colour registers without their top byte, then zeros (R34, R170). -/
theorem paletteSlot_toNat (s : State) (k : Nat) :
    (paletteSlot s k).toNat =
      if k = 0 then s.color0.toNat % 0x1000000 else if k = 1 then s.color1.toNat % 0x1000000
      else if k = 2 then s.color2.toNat % 0x1000000 else 0 := by
  simp only [paletteSlot, apply_ite BitVec.toNat, BitVec.extractLsb'_toNat, Nat.shiftRight_zero, Nat.reducePow,
    BitVec.ofNat_eq_ofNat, BitVec.toNat_zero]

/-- The 13 slots after the model's colours are zero (R170). -/
theorem paletteSlot_eq_zero (s : State) {k : Nat} (h : 3 ≤ k) : paletteSlot s k = 0 := by
  rw [paletteSlot, if_neg (by omega), if_neg (by omega), if_neg (by omega)]

/-- Byte `i` of an entry is bits `8i` to `8i + 7` of its colour: blue, green, red (R87, R90). -/
theorem paletteEntryBytes_getElem? (c : Colour) {i : Nat} (h : i < 3) :
    (paletteEntryBytes c)[i]? = some ((c >>> (8 * i)).setWidth 8) := by
  rw [BitVec.setWidth_ushiftRight_eq_extractLsb]
  interval_cases i <;> rfl

/-! ## The closed form -/

/-- In a concatenation of blocks of one length, the element at `m` is element `m mod w` of block `m div w`. -/
theorem getElem?_flatMap_range {α : Type} {f : Nat → List α} {w n m : Nat} (hf : ∀ k, (f k).length = w)
    (h : m < n * w) : ((List.range n).flatMap f)[m]? = (f (m / w))[m % w]? := by
  induction n with
  | zero => omega
  | succ n ih =>
    have hlen : ((List.range n).flatMap f).length = n * w := by simp [hf]
    rw [List.range_succ, List.flatMap_append, List.flatMap_singleton, List.getElem?_append, hlen]
    by_cases hm : m < n * w
    · rw [if_pos hm, ih hm]
    · have hdiv : m / w = n := Nat.div_eq_of_lt_le (Nat.not_lt.mp hm) h
      rw [if_neg hm, Nat.mod_eq_sub_div_mul, hdiv]

/-- The closed form is the byte of the 16 entries: each entry is 3 bytes, so slot and component are quotient and remainder
by 3 (R170, R173). -/
theorem paletteBytes_getElem? (s : State) {n : Nat} (h : n < 74) :
    (paletteBytes s)[n - 26]? = some (palByte s n) := by
  have hentry (k : Nat) : (paletteEntryBytes (paletteSlot s k)).length = 3 := rfl
  have hm : n - 26 < 16 * 3 := by omega
  have hc : (n - 26) % 3 < 3 := Nat.mod_lt _ (by decide)
  rw [paletteBytes, getElem?_flatMap_range hentry hm, paletteEntryBytes_getElem? _ hc, palByte]

/-- From offset 35 on the slot is one of the zero slots, so the byte is 0 (R173). -/
theorem palByte_eq_zero (s : State) {n : Nat} (h : 35 ≤ n) : palByte s n = 0 := by
  have hslot : 3 ≤ (n - 26) / 3 := by omega
  simp [palByte, paletteSlot_eq_zero s hslot]

/-- The closed form as a number: component `(n-26) mod 3` of the slot's number (R173). -/
theorem palByte_eq_ofNat (s : State) (n : Nat) :
    palByte s n = BitVec.ofNat 8 (((paletteSlot s ((n - 26) / 3)).toNat >>> (8 * ((n - 26) % 3))) % 256) := by
  apply BitVec.eq_of_toNat_eq
  simp [palByte]

/-- At the offsets of the palette the file's byte is the closed form (R202). -/
theorem encByte_of_palette_offset (s : State) {n : Nat} (hlo : 26 ≤ n) (hhi : n < 74) :
    encByte s n = some (palByte s n) := by
  rw [encByte, if_neg hlo.not_gt, if_pos hhi]

/-- Settles O46: the three facts about the closed form are `encByte_of_palette_offset`, `paletteBytes_getElem?` and
`palByte_eq_zero`. -/
theorem paletteClosedFormAgrees : Obligations.PaletteClosedFormAgrees := by
  unfold Obligations.PaletteClosedFormAgrees
  exact fun s n hlo hhi => ⟨encByte_of_palette_offset s hlo hhi, paletteBytes_getElem? s hhi, palByte_eq_zero s⟩

/-! ## The phase PALETTE -/

/-- The byte the phase offers at its own offsets is the closed form (R170, R173). -/
theorem paletteByte_eq_palByte (s : State) {n : Nat} (hlo : 26 ≤ n) (hhi : n < 74) :
    paletteByte s n = .ok (palByte s n) := by
  rw [paletteByte, if_neg hlo.not_gt, paletteBytes_getElem? s hhi, tableByte]

/-- The palette is followed by pixels when the size is not 0, so none of its bytes is the file's last (R150). -/
theorem palette_offset_ne_last {G n : Nat} (hG : G ≠ 0) (h : n < 74) : n ≠ fileSize G - 1 := by
  have hpos : 0 < 512 * G * G := by positivity
  unfold fileSize pixelDataSize
  omega

/-- The palette's offsets are followed by its own, and the last one by the pixels' (R25). -/
theorem phaseOf_succ_palette {n : Nat} (hlo : 26 ≤ n) (hhi : n < 74) :
    phaseOf (n + 1) = if n = 73 then .pixels else .palette := by
  unfold phaseOf
  rw [if_neg (by omega), if_neg (by omega)]
  by_cases hlast : n = 73
  · rw [if_pos hlast, if_neg (by omega)]
  · rw [if_neg hlast, if_pos (by omega)]

/-- A transfer at an offset of the palette carries no mark and goes to the phase of the next offset (R203). -/
theorem transferByte_palette {s : State} (b : Byte) (hG : gridG s ≠ 0) (hlo : 26 ≤ s.pc.toNat) (hhi : s.pc.toNat < 74) :
    transferByte b s =
      { s with out := s.out ++ [{ data := b, last := false }], pc := s.pc + 1,
               phase := if s.pc.toNat = 73 then .pixels else .palette } := by
  rw [transferByte_eq, if_neg (palette_offset_ne_last hG hhi), phaseOf_succ_palette hlo hhi]

/-- Settles O15: the phase's step is enabled and its byte is the closed form, whose number is read off by `palByte_eq_ofNat`
and `paletteSlot_toNat`; the transfer of it is `transferByte_palette`. -/
theorem paletteTransfersItsByte : Obligations.PaletteTransfersItsByte := by
  unfold Obligations.PaletteTransfersItsByte
  intro s hbusy hp hr hG hlo hhi k c slot
  have hbyte : palByte s s.pc.toNat = BitVec.ofNat 8 ((slot >>> (8 * c)) % 256) := by
    rw [palByte_eq_ofNat, paletteSlot_toNat]
  calc exec .palette s = transferIn .palette (paletteByte s s.pc.toNat) s := rfl
    _ = .next (transferByte (palByte s s.pc.toNat) s) := by
      rw [paletteByte_eq_palByte s hlo hhi, transferIn_enabled hbusy hp hr]
    _ = _ := by rw [transferByte_palette _ hG hlo hhi, hbyte]

end Sys2Proof.Machine
end

section
/-! PROOF. The family of pixel_rasterizer_with_border: what VALIDATE answers on written cells (R180), and the scan as four
nested loops (R182). -/

namespace Sys2Proof.Machine

/-! ## The phase VALIDATE -/

/-- Address `a` is the lowest cell of the run that holds the value 3: the ERRINFO of VALIDATE's error (R180). -/
def lowestBadCell (s : State) (a : Nat) : Prop :=
  a < gridG s * gridG s ∧ s.grid.read a = some 3 ∧ ∀ b, b < a → s.grid.read b ≠ some 3

/-- A run has at most one lowest cell that holds 3: neither of two lies below the other. -/
theorem lowestBadCell_unique {s : State} {a b : Nat} (ha : lowestBadCell s a) (hb : lowestBadCell s b) : a = b := by
  obtain ⟨-, hareads, habelow⟩ := ha
  obtain ⟨-, hbreads, hbbelow⟩ := hb
  have hle : a ≤ b := Nat.le_of_not_lt fun h => habelow b h hbreads
  have hge : b ≤ a := Nat.le_of_not_lt fun h => hbbelow a h hareads
  exact Nat.le_antisymm hle hge

section
variable {s : State} (hbusy : s.state = .busy) (hp : s.phase = .validate) (hw : cellsWritten s.grid (gridG s))
include hbusy hp hw

/-- VALIDATE, enabled on written cells, raises the error of the lowest cell that holds 3, or there is none and the run goes
on (R180). -/
theorem exec_validate_cases_of_written :
    (∃ a, lowestBadCell s a ∧ exec .validate s = .next (raiseError .valCell (BitVec.ofNat 32 a) s))
    ∨ (cellsInDomain s.grid (gridG s) ∧ exec .validate s = .next { s with phase := .fileHeader }) := by
  rcases execValidate_cases s with ⟨hdisabled, -⟩ | ⟨-, -, ⟨a, ha, hnone, -⟩ | ⟨-, ⟨a, ha, h3, hlow, e⟩ | hgood⟩⟩
  · exact absurd ⟨hbusy, hp⟩ hdisabled
  · exact absurd hnone (hw a ha)
  · exact .inl ⟨a, ⟨ha, h3, hlow⟩, e⟩
  · exact .inr hgood

/-- With no cell that holds 3 the run goes on to its first byte-producing phase (R180). -/
theorem exec_validate_of_cellsInDomain (hd : cellsInDomain s.grid (gridG s)) :
    exec .validate s = .next { s with phase := .fileHeader } := by
  rcases exec_validate_cases_of_written hbusy hp hw with ⟨a, ⟨ha, h3, -⟩, -⟩ | ⟨-, e⟩
  · exact absurd h3 (hd a ha)
  · exact e

/-- The lowest cell that holds 3 is the one VALIDATE's error names (R180). -/
theorem exec_validate_of_lowestBadCell {a : Nat} (ha : lowestBadCell s a) :
    exec .validate s = .next (raiseError .valCell (BitVec.ofNat 32 a) s) := by
  rcases exec_validate_cases_of_written hbusy hp hw with ⟨b, hb, e⟩ | ⟨hd, -⟩
  · rw [lowestBadCell_unique ha hb, e]
  · obtain ⟨hlt, h3, -⟩ := ha
    exact absurd h3 (hd a hlt)

end

/-- Settles O11: the two clauses are `exec_validate_of_cellsInDomain` and `exec_validate_of_lowestBadCell`. -/
theorem validateScansTheCells : Obligations.ValidateScansTheCells := by
  unfold Obligations.ValidateScansTheCells
  intro s hbusy hp hw
  exact ⟨exec_validate_of_cellsInDomain hbusy hp hw,
    fun a hlt h3 hlow => exec_validate_of_lowestBadCell hbusy hp hw ⟨hlt, h3, hlow⟩⟩

/-! ## The scan indices -/

/-- The band is one of the image's `G`: a file of `512 * G * G` pixel bytes has `32 * G` rows (R182). -/
theorem scanIndex_vi_lt {G p : Nat} (h : p < 512 * G * G) : (scanIndex G p).vi < G := by
  have hrow : p / rowBytes G < 32 * G := Nat.div_lt_of_lt_mul (h.trans_eq (by unfold rowBytes; ring))
  exact Nat.div_lt_of_lt_mul hrow

/-- The cell column is one of the row's `G` (R182). -/
theorem scanIndex_hi_lt {G : Nat} (hG : 0 < G) (p : Nat) : (scanIndex G p).hi < G := by
  have hcol : p % rowBytes G < 16 * G := Nat.mod_lt _ (by unfold rowBytes; omega)
  exact Nat.div_lt_of_lt_mul hcol

/-- The counters, weighted by the lengths of the loops inside them, give the byte index back (R182). -/
theorem scanIndex_recompose (G p : Nat) :
    (((scanIndex G p).vi * 32 + (scanIndex G p).vj) * G + (scanIndex G p).hi) * 16 + (scanIndex G p).hj = p := by
  have hrow : (scanIndex G p).vi * 32 + (scanIndex G p).vj = p / rowBytes G := Nat.div_add_mod' _ _
  have hcol : (scanIndex G p).hi * 16 + (scanIndex G p).hj = p % rowBytes G := Nat.div_add_mod' _ _
  calc (((scanIndex G p).vi * 32 + (scanIndex G p).vj) * G + (scanIndex G p).hi) * 16 + (scanIndex G p).hj
    _ = rowBytes G * ((scanIndex G p).vi * 32 + (scanIndex G p).vj)
          + ((scanIndex G p).hi * 16 + (scanIndex G p).hj) := by unfold rowBytes; ring
    _ = p := by rw [hrow, hcol, Nat.div_add_mod]

/-- The byte index made of four counters in their ranges has them as its scan indices: the row is the quotient by the
row's bytes, the byte in the row the remainder (R182). -/
theorem scanIndex_of_counters {G vj hi hj : Nat} (vi : Nat) (hvj : vj < 32) (hhi : hi < G) (hhj : hj < 16) :
    scanIndex G (((vi * 32 + vj) * G + hi) * 16 + hj) = { vi := vi, vj := vj, hi := hi, hj := hj } := by
  have hsplit : ((vi * 32 + vj) * G + hi) * 16 + hj = rowBytes G * (vi * 32 + vj) + (hi * 16 + hj) := by
    unfold rowBytes
    ring
  have hfits : hi * 16 + hj < rowBytes G := by
    unfold rowBytes
    omega
  have hrow : (rowBytes G * (vi * 32 + vj) + (hi * 16 + hj)) / rowBytes G = vi * 32 + vj := by
    rw [Nat.mul_add_div (by omega), Nat.div_eq_of_lt hfits, Nat.add_zero]
  have hcol : (rowBytes G * (vi * 32 + vj) + (hi * 16 + hj)) % rowBytes G = hi * 16 + hj := by
    rw [Nat.mul_add_mod, Nat.mod_eq_of_lt hfits]
  rw [hsplit, scanIndex, hrow, hcol, ScanIndex.mk.injEq]
  omega

/-- A cell in a column of the grid is one of the grid's: its mirrored row is below `G` (R183). -/
theorem cellAddr_lt {G : Nat} {i : ScanIndex} (h : i.hi < G) : cellAddr G i < G * G := by
  calc cellAddr G i < (G - 1 - i.vi) * G + G := Nat.add_lt_add_left h _
    _ = (G - 1 - i.vi + 1) * G := (Nat.succ_mul ..).symm
    _ ≤ G * G := Nat.mul_le_mul_right G (by omega)

/-- Settles O48: the ranges are the four bounds on the scan indices, the sum is `scanIndex_recompose`, the cell is
`cellAddr_lt`, and the counters come back by `scanIndex_of_counters`. -/
theorem scanIndicesAreTheFourLoops : Obligations.ScanIndicesAreTheFourLoops := by
  unfold Obligations.ScanIndicesAreTheFourLoops
  refine fun G => ⟨fun p hp => ?_, fun vi vj hi hj _ => scanIndex_of_counters vi⟩
  have hvi := scanIndex_vi_lt hp
  have hhi := scanIndex_hi_lt (Nat.zero_lt_of_lt hvi) p
  exact ⟨⟨hvi, scanIndex_vj_lt G p, hhi, scanIndex_hj_lt G p⟩, (scanIndex_recompose G p).symm, cellAddr_lt hhi⟩

end Sys2Proof.Machine
end

section
/-! PROOF. The family of the codes: decode against encode (R82, R83), and where a step meets the instruction a code names
(R14, R28, R83). -/

namespace Sys2Proof.Machine

/-! ## Decode and encode -/

/-- The decoder reads every instruction's code back (R82, R83). -/
theorem decode_encode (i : Instr) : decode (encode i) = .ok i := by cases i <;> rfl

/-- A command word below 3 is one of the three codes of R82. -/
theorem command_word_cases {w : Word} (h : w.toNat < 3) : w = 0#32 ∨ w = 1#32 ∨ w = 2#32 := by
  simp only [← BitVec.toNat_inj, BitVec.toNat_ofNat]
  omega

/-- Command decode answers an instruction on that instruction's code only (R82). -/
theorem encode_of_decodeCmd {w : Word} {i : Instr} (h : decodeCmd w = .ok i) : encode i = .cmd w := by
  have hlt : w.toNat < 3 := by
    by_contra hge
    simp [decodeCmd_reserved (Nat.not_lt.mp hge)] at h
  rcases command_word_cases hlt with rfl | rfl | rfl <;> rw [← Except.ok.inj h] <;> rfl

/-- Phase decode answers an instruction on that instruction's code only (R83). -/
theorem encode_of_decodePhase {i : Instr} : ∀ {c : BitVec 3}, decodePhase c = .ok i → encode i = .phase c := by
  cases i <;> decide

/-- Settles O4: a code that decodes is the code of its instruction in each of the two formats, and `decode_encode` is the
other direction. -/
theorem decodeAndEncodeAgree : Obligations.DecodeAndEncodeAgree := by
  unfold Obligations.DecodeAndEncodeAgree
  intro c i _
  constructor
  · intro h
    cases c with
    | cmd w => exact (encode_of_decodeCmd h).symm
    | phase code => exact (encode_of_decodePhase h).symm
  · rintro rfl
    exact decode_encode i

/-- Settles O1: the rows of the opcode table are finitely many closed words (R82, R83, log 10). -/
theorem tableWordsDecodeToTheirRows : Obligations.TableWordsDecodeToTheirRows := by
  unfold Obligations.TableWordsDecodeToTheirRows
  decide

/-- A state carries one of the six PHASE codes that occur (R83). -/
theorem phase_code_lt (p : Phase) : p.code.toNat < 6 := by cases p <;> decide

/-- Settles O3: the eight 3-bit codes are checked one by one; a state's code is `phase_code_lt`. -/
theorem phaseCodesNameTheEngineSteps : Obligations.PhaseCodesNameTheEngineSteps := by
  unfold Obligations.PhaseCodesNameTheEngineSteps
  exact ⟨by decide, fun s => phase_code_lt s.phase⟩

/-! ## Where a step meets its instruction -/

/-- The engine's turn in a run is the meaning of the instruction its PHASE code names (R83). -/
theorem engineTurn_of_decode {s : State} {i : Instr} (hb : s.state = .busy) (h : decodePhase s.phase.code = .ok i) :
    engineTurn s = exec i s := by
  rw [engineTurn, if_pos hb, h]

/-- With no input left a step is the engine's turn (log 3). -/
theorem step_no_input {s : State} (h : s.inputs = []) : step s = engineTurn s := by
  simp only [step, h]

/-- The engine's turn given as an input is taken on the state without it (R14). -/
theorem step_engine {s : State} {rest : List Input} (h : s.inputs = .engine :: rest) :
    step s = engineTurn { s with inputs := rest } := by
  simp only [step, h, inputStep]

/-- Settles O5: a write to CMD is `writeCmd`, a turn of the engine is `engineTurn_of_decode`. -/
theorem stepRunsTheDecodedInstruction : Obligations.StepRunsTheDecodedInstruction := by
  unfold Obligations.StepRunsTheDecodedInstruction
  refine ⟨fun s w i rest h hd => ?command, fun s i rest hb hd h => ?turn, fun s i hb hd h => ?noInput⟩
  case command => rw [step_wr_cmd h, writeCmd_of_decode hd]
  case turn => exact (step_engine h).trans (engineTurn_of_decode hb hd)
  case noInput => rw [step_no_input h, engineTurn_of_decode hb hd]

/-- A code that decodes is the code of the phase it names (R83). -/
theorem phaseOfCode_code {i : Instr} : ∀ {c : BitVec 3}, decodePhase c = .ok i → (phaseOfCode c).code = c := by
  cases i <;> decide

/-- The decoder's answer is kept where it is read as an optional instruction. -/
theorem eq_ok_of_toOption {ε α : Type} {x : Except ε α} {a : α} (h : x.toOption = some a) : x = .ok a := by
  cases x with
  | error e => cases h
  | ok b => rw [Option.some.inj h]

/-- A table word of the PHASE format that decodes is a 3-bit code that decodes (log 10). -/
theorem codeOfTableWord_of_phase_row {nbits w : Nat} {i : Instr} (hn : nbits ≤ 8) (h : decodeTableWord nbits w = some i) :
    ∃ c, codeOfTableWord nbits w = some (.phase c) ∧ decodePhase c = .ok i := by
  unfold decodeTableWord at h
  rw [codeOfTableWord, if_pos hn] at h ⊢
  by_cases hw : w < 8
  · rw [if_pos hw] at h ⊢
    exact ⟨_, rfl, eq_ok_of_toOption h⟩
  · simp [hw] at h

/-- A table word of the CMD format that decodes is a command word that decodes (log 10). -/
theorem codeOfTableWord_of_command_row {nbits w : Nat} {i : Instr} (hn : 8 < nbits)
    (h : decodeTableWord nbits w = some i) : ∃ c, codeOfTableWord nbits w = some (.cmd c) ∧ decodeCmd c = .ok i := by
  unfold decodeTableWord at h
  rw [codeOfTableWord, if_neg hn.not_ge] at h ⊢
  by_cases hw : w < 4294967296
  · rw [if_pos hw] at h ⊢
    exact ⟨_, rfl, eq_ok_of_toOption h⟩
  · simp [hw] at h

/-- Settles O6: a PHASE row is placed as a run in the phase its code names, whose engine turn is next; a CMD row as the host's
next write to CMD (log 9). -/
theorem fetchWordIsRunNext : Obligations.FetchWordIsRunNext := by
  unfold Obligations.FetchWordIsRunNext
  intro s nbits w i h
  rcases Nat.lt_or_ge 8 nbits with hn | hn
  · obtain ⟨c, hcode, hd⟩ := codeOfTableWord_of_command_row hn h
    refine ⟨s, ?_, rfl, rfl, rfl, fun hle => absurd hle hn.not_ge, fun _ => rfl⟩
    rw [State.withFetchWord, hcode]
    exact (step_wr_cmd rfl).trans (writeCmd_of_decode hd s)
  · obtain ⟨c, hcode, hd⟩ := codeOfTableWord_of_phase_row hn h
    have hphase := phaseOfCode_code hd
    refine ⟨{ withPhase (phaseOfCode c) s with inputs := s.inputs }, ?_, rfl, rfl, rfl, fun _ => ⟨rfl, ?_, rfl⟩,
      fun hlt => absurd hlt hn.not_gt⟩
    · rw [State.withFetchWord, hcode]
      exact (step_engine rfl).trans (engineTurn_of_decode rfl (hphase.symm ▸ hd))
    · exact (encode_of_decodePhase hd).trans (congrArg Code.phase hphase.symm)

end Sys2Proof.Machine
end

section
/-! PROOF. The layer of the step: everything a write, the engine and a step can do, effect by effect, which the rules of the
whole machine cite (R14, R20, R68). -/

namespace Sys2Proof.Machine

/-! ## What a REG write does -/

/-- The effects of the REG write `wr` that a step makes, if it makes one (R133 to R138). -/
inductive WrEffect (wr : Option (RegOffset × Word)) (s : State) : State → Prop
  | nothing : WrEffect wr s s
  | notExecuted {d : Word} (hwr : wr = some (0x000#12, d))
      (hd : 3 ≤ d.toNat ∨ (s.state = .busy ∧ (d.toNat = 1 ∨ d.toNat = 2))) : WrEffect wr s (setBadcmd s)
  | dropped {o : RegOffset} {d : Word} (hwr : wr = some (o, d)) (ho : isConfigOffset o) (hb : s.state = .busy) :
      WrEffect wr s (setBusywr s)
  | stored {o : RegOffset} {d : Word} {t : State} (hwr : wr = some (o, d)) (hb : s.state ≠ .busy)
      (ht : storesConfig o d s t) : WrEffect wr s t
  | startFailed {code : ErrCode} {info : Word} (hwr : wr = some (0x000#12, 0x00000001#32)) (hb : s.state ≠ .busy)
      (hc : startCheck s = some (code, info)) : WrEffect wr s (raiseError code info (forgetRun s))
  | started (hwr : wr = some (0x000#12, 0x00000001#32)) (hb : s.state ≠ .busy) (hc : startCheck s = none) :
      WrEffect wr s { forgetRun s with state := .busy, phase := .validate }
  | cleared (hwr : wr = some (0x000#12, 0x00000002#32)) (hb : s.state ≠ .busy) : WrEffect wr s (returnToIdle s)

/-- A command word that decodes is one of the three commands' (R82). -/
theorem decodeCmd_ok_cases {w : Word} {i : Instr} (h : decodeCmd w = .ok i) :
    (w = 0#32 ∧ i = .nop) ∨ (w = 1#32 ∧ i = .start) ∨ (w = 2#32 ∧ i = .clear) := by
  have hcode := encode_of_decodeCmd h
  cases i with
  | nop => exact .inl ⟨(Code.cmd.inj hcode).symm, rfl⟩
  | start => exact .inr (.inl ⟨(Code.cmd.inj hcode).symm, rfl⟩)
  | clear => exact .inr (.inr ⟨(Code.cmd.inj hcode).symm, rfl⟩)
  | validate | fileHeader | infoHeader | palette | pixels => cases hcode

/-- A command word that does not decode is above the three codes (R82). -/
theorem three_le_of_decodeCmd_error {w : Word} {e : DecodeError} (h : decodeCmd w = .error e) : 3 ≤ w.toNat := by
  by_contra hlt
  rcases command_word_cases (Nat.not_le.mp hlt) with rfl | rfl | rfl <;> cases h

/-- A WR answers one of its effects (R134). -/
theorem hostWr_effect {o : RegOffset} {d : Word} {s t : State} (h : hostWr o d s = .next t) :
    WrEffect (some (o, d)) s t := by
  rcases hostWr_next h with ⟨rfl, i, hi, he⟩ | ⟨rfl, hd, rfl⟩ | ⟨ho, hb, rfl⟩ | ⟨-, hb, ht⟩ | ⟨-, -, rfl⟩
  · rcases decodeCmd_ok_cases hi with ⟨-, rfl⟩ | ⟨rfl, rfl⟩ | ⟨rfl, rfl⟩
    · obtain rfl := Host.Outcome.next.inj he
      exact .nothing
    · rcases execStart_cases s with ⟨hb, e⟩ | ⟨hb, code, info, hc, e⟩ | ⟨hb, hc, e⟩ <;>
        obtain rfl := Host.Outcome.next.inj (e.symm.trans he)
      · exact .notExecuted rfl (.inr ⟨hb, .inl rfl⟩)
      · exact .startFailed rfl hb hc
      · exact .started rfl hb hc
    · rcases execClear_cases s with ⟨hb, e⟩ | ⟨hb, e⟩ <;> obtain rfl := Host.Outcome.next.inj (e.symm.trans he)
      · exact .notExecuted rfl (.inr ⟨hb, .inr rfl⟩)
      · exact .cleared rfl hb
  · exact .notExecuted rfl (.inl (three_le_of_decodeCmd_error hd))
  · exact .dropped rfl ho hb
  · exact .stored rfl hb ht
  · exact .nothing

/-! ## What the engine does -/

/-- The effects of the engine's turn (R20, R180, R203). -/
inductive EngineEffect (s : State) : State → Prop
  | noStep : EngineEffect s s
  | cellError {a : Nat} (hb : s.state = .busy) (hp : s.phase = .validate) (ha : a < gridG s * gridG s)
      (h3 : s.grid.read a = some 3) : EngineEffect s (raiseError .valCell (BitVec.ofNat 32 a) s)
  | validated (hb : s.state = .busy) (hp : s.phase = .validate) (hw : cellsWritten s.grid (gridG s))
      (hd : cellsInDomain s.grid (gridG s)) : EngineEffect s { s with phase := .fileHeader }
  | transfer {b : Byte} (hb : IsTransfer s b) : EngineEffect s (transferByte b s)

/-- No PHASE code names a command (R83). -/
theorem decodePhase_ne_command {c : BitVec 3} {i : Instr} (h : decodePhase c = .ok i) : i ≠ .start ∧ i ≠ .clear := by
  have hcode := encode_of_decodePhase h
  constructor <;> rintro rfl <;> cases hcode

/-- The engine's turn answers one of its effects. -/
theorem engineTurn_effect {s t : State} (h : engineTurn s = .next t) : EngineEffect s t := by
  rcases engineTurn_next h with rfl | ⟨-, i, hi, he⟩
  · exact .noStep
  obtain ⟨hstart, hclear⟩ := decodePhase_ne_command hi
  rcases exec_next_cases he with ⟨-, -, rfl⟩ | ⟨hcmd, -⟩ | ⟨hcmd, -⟩ | ⟨hcmd, -⟩ | ⟨hcmd, -⟩
    | ⟨-, hb, hp, a, ha, h3, rfl⟩ | ⟨-, hb, hp, hw, hd, rfl⟩ | ⟨b, hb, rfl⟩
  · exact .noStep
  · exact absurd hcmd (not_or.mpr ⟨hstart, hclear⟩)
  · exact absurd hcmd hstart
  · exact absurd hcmd hstart
  · exact absurd hcmd hclear
  · exact .cellError hb hp ha h3
  · exact .validated hb hp hw hd
  · exact .transfer hb

/-! ## What the outside does to a run -/

/-- The two states agree but for the sticky flags and the model's fields for the outside: the registers a run reads, GRID and
the stream are the same. -/
def sameBlock (s t : State) : Prop :=
  t = { s with badcmd := t.badcmd, busywr := t.busywr, inputs := t.inputs, outReady := t.outReady,
               regRdata := t.regRdata, gridRdata := t.gridRdata }

/-- What host accesses leave of a run in progress (R65, R133, R135, R139): everything but the read data ports and the flags,
each flag raised only by a write that is dropped. -/
structure KeepsRun (wr : Option (RegOffset × Word)) (gw : Option (GridAddr × Cell)) (s t : State) : Prop where
  same   : sameBlock s t
  ready  : t.outReady = s.outReady
  badcmd : t.badcmd = s.badcmd
    ∨ t.badcmd = true ∧ ∃ w, wr = some (0x000#12, w) ∧ (3 ≤ w.toNat ∨ w.toNat = 1 ∨ w.toNat = 2)
  busywr : t.busywr = s.busywr
    ∨ t.busywr = true ∧ ((∃ o d, wr = some (o, d) ∧ isConfigOffset o) ∨ ∃ w, gw = some w)

theorem sameBlock_regRdata (s : State) (v : Word) : sameBlock s { s with regRdata := v } := rfl

theorem sameBlock.trans {s t u : State} (hst : sameBlock s t) (htu : sameBlock t u) : sameBlock s u := by
  rw [sameBlock, hst] at htu
  exact htu

section
variable {s t : State} (h : sameBlock s t)
include h

theorem sameBlock.state_eq : t.state = s.state := by rw [h]
theorem sameBlock.phase_eq : t.phase = s.phase := by rw [h]
theorem sameBlock.pc_eq : t.pc = s.pc := by rw [h]
theorem sameBlock.out_eq : t.out = s.out := by rw [h]
theorem sameBlock.grid_eq : t.grid = s.grid := by rw [h]
theorem sameBlock.gridG_eq : gridG t = gridG s := by
  rw [h]
  rfl

/-- What a run reads is part of the block (R65). -/
theorem sameBlock.sameSnapshot : sameSnapshot s t := by
  rw [h]
  exact sameSnapshot_refl s

/-- The byte at every file offset is that of the block (R202). -/
theorem sameBlock.streamByte_eq (n : Nat) : streamByte t n = streamByte s n :=
  streamByte_eq_of_sameSnapshot h.sameSnapshot n

end

section
variable {wr : Option (RegOffset × Word)} {gw : Option (GridAddr × Cell)} {s t u : State}

theorem KeepsRun.refl : KeepsRun wr gw s s := ⟨rfl, rfl, .inl rfl, .inl rfl⟩

theorem KeepsRun.trans (hst : KeepsRun wr gw s t) (htu : KeepsRun wr gw t u) : KeepsRun wr gw s u where
  same := hst.same.trans htu.same
  ready := htu.ready.trans hst.ready
  badcmd := by
    rcases htu.badcmd with h | h
    · rw [h]
      exact hst.badcmd
    · exact .inr h
  busywr := by
    rcases htu.busywr with h | h
    · rw [h]
      exact hst.busywr
    · exact .inr h

theorem KeepsRun.of_regRdata (v : Word) : KeepsRun wr gw s { s with regRdata := v } :=
  ⟨rfl, rfl, .inl rfl, .inl rfl⟩

theorem KeepsRun.of_gridRdata (v : Cell) : KeepsRun wr gw s { s with gridRdata := v } :=
  ⟨rfl, rfl, .inl rfl, .inl rfl⟩

/-- In a run a REG write only raises a flag (R133, R135). -/
theorem WrEffect.keepsRun (hb : s.state = .busy) (h : WrEffect wr s t) : KeepsRun wr gw s t := by
  cases h with
  | nothing => exact .refl
  | notExecuted hwr hd => exact ⟨rfl, rfl, .inr ⟨rfl, _, hwr, hd.imp_right And.right⟩, .inl rfl⟩
  | dropped hwr ho => exact ⟨rfl, rfl, .inl rfl, .inr ⟨rfl, .inl ⟨_, _, hwr, ho⟩⟩⟩
  | stored _ hnb | startFailed _ hnb | started _ hnb | cleared _ hnb => exact absurd hb hnb

/-- In a run a GW only raises BUSYWR (R139). -/
theorem hostGw_keepsRun {a : GridAddr} {v : Cell} (hb : s.state = .busy) (h : hostGw a v s = .next t) :
    KeepsRun wr (some (a, v)) s t := by
  rw [hostGw_of_busy hb] at h
  obtain rfl := Host.Outcome.next.inj h
  exact ⟨rfl, rfl, .inl rfl, .inr ⟨rfl, .inr ⟨_, rfl⟩⟩⟩

end

/-! ## What a GRID access does outside a run -/

/-- What a GRID access leaves outside BUSY (R139, R140): everything but the read data port and, for a GW to an existing cell,
that cell. -/
structure GridAccess (gw : Option (GridAddr × Cell)) (s t : State) : Prop where
  same : t = { s with grid := t.grid, gridRdata := t.gridRdata }
  grid : t.grid = s.grid
    ∨ ∃ a v, gw = some (a, v) ∧ a.toNat < cellCount s.cfg ∧ t.grid = s.grid.write a.toNat v

section
variable {gw : Option (GridAddr × Cell)} {s t : State}

theorem GridAccess.refl : GridAccess gw s s := ⟨rfl, .inl rfl⟩

theorem hostGw_gridAccess {a : GridAddr} {v : Cell} (hb : s.state ≠ .busy) (h : hostGw a v s = .next t) :
    GridAccess (some (a, v)) s t := by
  rcases hostGw_next h with ⟨hbusy, -⟩ | ⟨-, ha, rfl⟩ | ⟨-, -, rfl⟩
  · exact absurd hbusy hb
  · exact ⟨rfl, .inr ⟨a, v, rfl, ha, rfl⟩⟩
  · exact .refl

theorem GridAccess.state_eq (h : GridAccess gw s t) : t.state = s.state := by rw [h.same]
theorem GridAccess.pc_eq (h : GridAccess gw s t) : t.pc = s.pc := by rw [h.same]
theorem GridAccess.out_eq (h : GridAccess gw s t) : t.out = s.out := by rw [h.same]
theorem GridAccess.badcmd_eq (h : GridAccess gw s t) : t.badcmd = s.badcmd := by rw [h.same]
theorem GridAccess.busywr_eq (h : GridAccess gw s t) : t.busywr = s.busywr := by rw [h.same]

theorem hostGr_gridAccess {b : State} {a : GridAddr} (h : hostGr b a s = .next t) : GridAccess gw s t := by
  obtain ⟨v, rfl⟩ := hostGr_next h
  exact ⟨rfl, .inl rfl⟩

end

/-! ## What a step does -/

/-- The state a step's accesses start from: the input is taken, and a clock edge has brought the level of `out_ready`. -/
def afterInput (s : State) (rest : List Input) : State := { s with inputs := rest, outReady := s.readyNext }

/-- In a run the host's accesses leave the block as the step found it. -/
theorem KeepsRun.sameBlock_afterInput {wr : Option (RegOffset × Word)} {gw : Option (GridAddr × Cell)} {s u : State}
    {rest : List Input} (h : KeepsRun wr gw (afterInput s rest) u) : sameBlock s u := h.same

/-- The effects of a step (R14): the reset; a new level of the sink; in a run the host's accesses and then the engine; outside
BUSY a GRID access, a REG read and a REG write. -/
inductive StepEffect (s : State) : State → Prop
  | reset (rest : List Input) (hr : s.resetNext = true) : StepEffect s (resetStep (afterInput s rest))
  | sink (rest : List Input) (ready : Bool) : StepEffect s { s with inputs := rest, outReady := ready }
  | inRun {u t : State} (rest : List Input) (hr : s.resetNext = false) (hb : s.state = .busy)
      (hu : KeepsRun s.regWriteNext s.gridWriteNext (afterInput s rest) u) (ht : EngineEffect u t) : StepEffect s t
  | outside {u t : State} (rest : List Input) (v : Word) (hr : s.resetNext = false) (hb : s.state ≠ .busy)
      (hu : GridAccess s.gridWriteNext (afterInput s rest) u)
      (ht : WrEffect s.regWriteNext { u with regRdata := v } t) : StepEffect s t

/-- Where the step brings no level of its own, only the input is taken. -/
theorem afterInput_eq {s : State} (h : s.readyNext = s.outReady) (rest : List Input) :
    afterInput s rest = { s with inputs := rest } := by
  rw [afterInput, h]

/-- A clock edge brings the level of `out_ready` of its pin (R51). -/
theorem afterInput_edge {s : State} {p : Pins} {rest : List Input} (h : s.inputs = .edge p :: rest) :
    afterInput s rest = { s with inputs := rest, outReady := p.outReady } := by
  simp [afterInput, State.readyNext, h]

section
variable {s t : State} {rest : List Input}

/-- The engine's turn as a step. -/
theorem StepEffect.of_engineTurn (hr : s.resetNext = false) (h : engineTurn (afterInput s rest) = .next t) :
    StepEffect s t := by
  by_cases hb : s.state = .busy
  · exact .inRun rest hr hb .refl (engineTurn_effect h)
  · have ht : engineTurn (afterInput s rest) = .next (afterInput s rest) := if_neg hb
    obtain rfl := Host.Outcome.next.inj (ht.symm.trans h)
    exact .outside rest s.regRdata hr hb .refl .nothing

/-- A host transaction in a run raises flags and read data at most. -/
theorem hostStep_keepsRun {op : HostOp} {u : State} (hi : s.inputs = .host op :: rest) (hb : u.state = .busy)
    (h : hostStep op u = .next t) : KeepsRun s.regWriteNext s.gridWriteNext u t := by
  cases op with
  | wr o d =>
    have hwr : s.regWriteNext = some (o, d) := by simp [State.regWriteNext, hi]
    rw [hwr]
    exact (hostWr_effect h).keepsRun hb
  | rd o =>
    rw [hostRd_next h]
    exact .of_regRdata _
  | gw a v =>
    have hgw : s.gridWriteNext = some (a, v) := by simp [State.gridWriteNext, hi]
    rw [hgw]
    exact hostGw_keepsRun hb h
  | gr a =>
    obtain ⟨v, rfl⟩ := hostGr_next h
    exact .of_gridRdata v

/-- A host transaction as a step. -/
theorem StepEffect.of_hostStep {op : HostOp} (hi : s.inputs = .host op :: rest)
    (h : hostStep op (afterInput s rest) = .next t) : StepEffect s t := by
  have hr : s.resetNext = false := by simp [State.resetNext, hi, Input.isReset]
  by_cases hb : s.state = .busy
  · exact .inRun rest hr hb (hostStep_keepsRun hi hb h) .noStep
  · cases op with
    | wr o d =>
      have hwr : s.regWriteNext = some (o, d) := by simp [State.regWriteNext, hi]
      exact .outside rest s.regRdata hr hb .refl (hwr ▸ hostWr_effect h)
    | rd o =>
      obtain rfl := hostRd_next h
      exact .outside rest _ hr hb .refl .nothing
    | gw a v =>
      have hgw : s.gridWriteNext = some (a, v) := by simp [State.gridWriteNext, hi]
      exact .outside rest t.regRdata hr hb (hgw ▸ hostGw_gridAccess hb h) .nothing
    | gr a => exact .outside rest t.regRdata hr hb (hostGr_gridAccess h) .nothing

/-! A clock edge without reset (R68). -/

section
variable {p : Pins} {b u : State} (hi : s.inputs = .edge p :: rest) (hrst : p.rst = false)
include hi hrst

theorem edgeGrid_keepsRun (hb : u.state = .busy) (h : edgeGrid p b u = .next t) :
    KeepsRun s.regWriteNext s.gridWriteNext u t := by
  rcases edgeGrid_next h with ⟨hwe, hgw⟩ | ⟨v, rfl⟩
  · have hnext : s.gridWriteNext = some (p.gridAddr, p.gridWdata) := by simp [State.gridWriteNext, hi, hrst, hwe]
    rw [hnext]
    exact hostGw_keepsRun hb hgw
  · exact .of_gridRdata v

theorem edgeGrid_gridAccess (hb : u.state ≠ .busy) (h : edgeGrid p b u = .next t) :
    GridAccess s.gridWriteNext u t := by
  rcases edgeGrid_next h with ⟨hwe, hgw⟩ | ⟨v, rfl⟩
  · have hnext : s.gridWriteNext = some (p.gridAddr, p.gridWdata) := by simp [State.gridWriteNext, hi, hrst, hwe]
    rw [hnext]
    exact hostGw_gridAccess hb hgw
  · exact ⟨rfl, .inl rfl⟩

/-- The REG access of a cycle is a REG read and then the REG write's effect; it makes at most one of the two. -/
theorem edgeReg_effect (h : edgeReg p b u = .next t) : ∃ v, WrEffect s.regWriteNext { u with regRdata := v } t := by
  rcases edgeReg_next h with ⟨hwe, hwr⟩ | ⟨v, rfl⟩
  · have hnext : s.regWriteNext = some (p.regAddr, p.regWdata) := by simp [State.regWriteNext, hi, hrst, hwe]
    rw [hnext]
    exact ⟨u.regRdata, hostWr_effect hwr⟩
  · exact ⟨v, .nothing⟩

theorem StepEffect.of_clockEdge {s1 s2 : State} (hgrid : edgeGrid p (afterInput s rest) (afterInput s rest) = .next s1)
    (hreg : edgeReg p (afterInput s rest) s1 = .next s2) (heng : edgeEngine (afterInput s rest) s2 = .next t) :
    StepEffect s t := by
  have hr : s.resetNext = false := by simp [State.resetNext, hi, Input.isReset, hrst]
  obtain ⟨v, hwr⟩ := edgeReg_effect hi hrst hreg
  by_cases hb : s.state = .busy
  · have hturn : engineTurn s2 = .next t := (if_pos hb : edgeEngine (afterInput s rest) s2 = _).symm.trans heng
    have hs1 := edgeGrid_keepsRun (u := afterInput s rest) hi hrst hb hgrid
    have hb1 : s1.state = .busy := hs1.same.state_eq.trans hb
    exact .inRun rest hr hb (hs1.trans ((KeepsRun.of_regRdata v).trans (hwr.keepsRun hb1))) (engineTurn_effect hturn)
  · have hidle : edgeEngine (afterInput s rest) s2 = .next s2 := if_neg hb
    obtain rfl := Host.Outcome.next.inj (hidle.symm.trans heng)
    exact .outside rest v hr hb (edgeGrid_gridAccess hi hrst hb hgrid) hwr

end

/-- A step answers one of its effects. -/
theorem step_effect (h : step s = .next t) : StepEffect s t := by
  rcases step_next_cases h with ⟨hi, heng⟩ | ⟨i, rest, hi, hin⟩
  · have hs : afterInput s [] = s := by
      rw [afterInput_eq (by simp [State.readyNext, hi]), ← hi]
    exact .of_engineTurn (rest := []) (by simp [State.resetNext, hi]) (hs ▸ heng)
  · cases i with
    | host op =>
      rw [← afterInput_eq (by simp [State.readyNext, hi])] at hin
      exact .of_hostStep hi hin
    | engine =>
      rw [← afterInput_eq (by simp [State.readyNext, hi])] at hin
      exact .of_engineTurn (by simp [State.resetNext, hi, Input.isReset]) hin
    | sink ready =>
      obtain rfl := Host.Outcome.next.inj hin
      exact .sink rest ready
    | reset =>
      rw [← afterInput_eq (by simp [State.readyNext, hi])] at hin
      obtain rfl := Host.Outcome.next.inj hin
      exact .reset rest (by simp [State.resetNext, hi, Input.isReset])
    | edge p =>
      rcases clockEdge_next hin with ⟨hrst, rfl⟩ | ⟨hrst, -, s1, s2, hgrid, hreg, heng⟩
      · rw [← afterInput_edge hi]
        exact .reset rest (by simp [State.resetNext, hi, Input.isReset, hrst])
      · rw [← afterInput_edge hi] at hgrid hreg heng
        exact .of_clockEdge hi hrst hgrid hreg heng

end

end Sys2Proof.Machine
end

section
/-! PROOF. The family of the invariants: the registers and memory (R22 to R35), and what the sink has of a run (R202). -/

namespace Sys2Proof.Machine

/-! ## Sizes -/

/-- What START accepts of a size, as bounds (R131). -/
theorem acceptedSize_iff {c : Config} {G : Nat} :
    acceptedSize c G = true ↔ G ≠ 0 ∧ 32 * G ≤ 65535 ∧ G ≤ c.maxGrid := by
  simp [acceptedSize, and_assoc]

/-- The file of an accepted size is shorter than 2^32 bytes, so `pc` counts it without wrap (R150). -/
theorem fileSize_lt_of_acceptedSize {c : Config} {G : Nat} (h : acceptedSize c G = true) : fileSize G < 2 ^ 32 := by
  obtain ⟨-, hside, -⟩ := acceptedSize_iff.mp h
  have hG : G ≤ 2047 := by omega
  calc fileSize G = 74 + 512 * (G * G) := by rw [fileSize, pixelDataSize, Nat.mul_assoc]
    _ ≤ 74 + 512 * (2047 * 2047) := by gcongr
    _ < 2 ^ 32 := by decide

/-- One more than a position inside a file of an accepted size does not wrap (R22). -/
theorem toNat_pc_succ {c : Config} {G : Nat} {pc : Word} (hG : acceptedSize c G = true) (h : pc.toNat < fileSize G) :
    (pc + 1).toNat = pc.toNat + 1 := by
  have hlt : pc.toNat + 1 < 2 ^ 32 := by
    have := fileSize_lt_of_acceptedSize hG
    omega
  rw [BitVec.toNat_add]
  exact Nat.mod_eq_of_lt hlt

/-- The phase of an offset is a byte-producing one (R25). -/
theorem phaseOf_producesBytes (n : Nat) : (phaseOf n).producesBytes = true := by
  simp only [phaseOf]
  split_ifs <;> rfl

/-- A byte-producing phase is one of the four (R25). -/
theorem Phase.producesBytes_iff {p : Phase} : p.producesBytes = true ↔ p ≠ .none ∧ p ≠ .validate := by
  cases p <;> simp [Phase.producesBytes]

/-! ## The invariant of the registers and memory -/

/-- After a reset no register can break the invariant; what reset keeps is GRID and the parameters (R250). -/
theorem inv_resetStep {s : State} (hcfg : s.cfg.wf = true) (hform : s.grid.wf = true)
    (hcells : gridInCapacity s.cfg s.grid) : (resetStep s).Inv where
  cfg := hcfg
  gridForm := hform
  gridCells := hcells
  phase _ := rfl
  errcode := by simp
  noPalette := by simp
  errinfo _ := rfl
  position _ := rfl
  done h := nomatch h
  run h := nomatch h

/-- A transfer that is not the last leaves a run at the next offset of the file and in its phase (R203, R204). -/
theorem State.RunInv.transferByte {s : State} {b : Byte} (hrun : s.RunInv) (hst : IsTransfer s b)
    (hmore : s.pc.toNat ≠ fileSize (gridG s) - 1) : (transferByte b s).RunInv := by
  obtain ⟨hbytes, -, hlt⟩ := hst.position
  have hsucc := toNat_pc_succ hrun.size hlt
  have hnext := phaseOf_producesBytes (s.pc.toNat + 1)
  obtain ⟨hnone, hval⟩ := Phase.producesBytes_iff.mp hnext
  have hin : (s.pc + 1).toNat < fileSize (gridG s) := by omega
  rw [transferByte_eq, if_neg hmore]
  exact
    { hrun with
      notNone := hnone
      validate := fun hv => absurd hv hval
      position := fun _ => ⟨by simp only [hsucc], hin⟩
      cells := fun _ => hrun.cells hbytes }

section
variable {s t : State} (h : s.Inv)
include h

/-- The invariant looks at nothing that the outside can change in a run. -/
theorem State.Inv.of_sameBlock (hst : sameBlock s t) : t.Inv := by
  rw [hst]
  exact { h with run := fun hb => { h.run hb with } }

/-- Outside ERROR there is no error code (R26). -/
theorem State.Inv.errcode_none (he : s.state ≠ .error) : s.errcode = .none := h.errcode.mpr he

/-- A GRID access outside a run writes at most one existing cell (R35, R139). -/
theorem State.Inv.gridAccess {gw : Option (GridAddr × Cell)} (hb : s.state ≠ .busy) (hst : GridAccess gw s t) : t.Inv := by
  have hgrid : t.grid.wf = true ∧ gridInCapacity s.cfg t.grid := by
    rcases hst.grid with hg | ⟨a, v, -, ha, hg⟩ <;> rw [hg]
    · exact ⟨h.gridForm, h.gridCells⟩
    · refine ⟨Grid.wf_write _ _ _ h.gridForm, fun b hne => ?_⟩
      rcases (Grid.read_write_ne_none ..).mp hne with rfl | hb
      · exact ha
      · exact h.gridCells b hb
  obtain ⟨hform, hcells⟩ := hgrid
  rw [hst.same]
  exact { h with gridForm := hform, gridCells := hcells, run := fun hbusy => absurd hbusy hb }

/-- A REG write keeps the invariant (R131, R132, R135). -/
theorem State.Inv.wrEffect {wr : Option (RegOffset × Word)} (hst : WrEffect wr s t) : t.Inv := by
  cases hst with
  | nothing => exact h
  | notExecuted => exact h.of_sameBlock rfl
  | dropped => exact h.of_sameBlock rfl
  | stored _ hb ht =>
    rcases ht with ⟨-, rfl⟩ | ⟨-, rfl⟩ | ⟨-, rfl⟩ | ⟨-, rfl⟩ <;>
      exact { h with run := fun hbusy => absurd hbusy hb }
  | startFailed _ _ hc =>
    exact
      { h with
        phase := fun _ => rfl
        errcode := by rcases startCheck_code hc with rfl | rfl | rfl | rfl <;> simp
        noPalette := by rcases startCheck_code hc with rfl | rfl | rfl | rfl <;> simp
        errinfo := fun he => absurd rfl he
        position := fun _ => rfl
        done := fun hd => nomatch hd
        run := fun hb => nomatch hb }
  | started _ _ hc =>
    obtain ⟨hsize, hcolours⟩ := startCheck_eq_none.mp hc
    exact
      { h with
        phase := fun hb => absurd rfl hb
        errcode := by simp
        noPalette := by simp
        errinfo := fun _ => rfl
        position := fun _ => rfl
        done := fun hd => nomatch hd
        run := fun _ =>
          { size := hsize
            colours := hcolours
            notNone := fun hn => nomatch hn
            validate := fun _ => rfl
            position := fun hp => nomatch hp
            cells := fun hp => nomatch hp } }
  | cleared =>
    exact
      { h with
        phase := fun _ => rfl
        errcode := by simp
        noPalette := by simp
        errinfo := fun _ => rfl
        position := fun _ => rfl
        done := fun hd => nomatch hd
        run := fun hb => nomatch hb }

/-- A transfer keeps the invariant: `pc` goes to the next offset of the file and its phase, or to the file's size (R203). -/
theorem State.Inv.transferByte {b : Byte} (hst : IsTransfer s b) : (transferByte b s).Inv := by
  have hrun := h.run hst.busy
  have hbusy : s.state ≠ .error := by simp [hst.busy]
  obtain ⟨-, -, hlt⟩ := hst.position
  by_cases hlast : s.pc.toNat = fileSize (gridG s) - 1
  · rw [transferByte_eq, if_pos hlast]
    exact
      { h with
        phase := fun _ => rfl
        errcode := by simp [h.errcode_none hbusy]
        errinfo := fun _ => h.errinfo hbusy
        position := fun hp => by simp at hp
        done := fun _ => ⟨gridG s, hrun.size, by rw [toNat_pc_succ hrun.size hlt]; omega⟩
        run := fun hb => nomatch hb }
  · have hnext := hrun.transferByte hst hlast
    rw [transferByte_eq, if_neg hlast] at hnext ⊢
    exact
      { h with
        phase := fun hb => absurd hst.busy hb
        position := fun hp => by simp [hst.busy] at hp
        done := fun hd => by simp [hst.busy] at hd
        run := fun _ => hnext }

/-- The engine keeps the invariant (R180, R203, R226). -/
theorem State.Inv.engineEffect (hst : EngineEffect s t) : t.Inv := by
  cases hst with
  | noStep => exact h
  | cellError hb hp =>
    exact
      { h with
        phase := fun _ => rfl
        errcode := by simp
        noPalette := by simp
        errinfo := fun he => absurd rfl he
        position := fun _ => (h.run hb).validate hp
        done := fun hd => nomatch hd
        run := fun hbusy => nomatch hbusy }
  | validated hb hp hw hd =>
    have hpc : s.pc = 0 := (h.run hb).validate hp
    have hstart : Phase.fileHeader = phaseOf s.pc.toNat ∧ s.pc.toNat < fileSize (gridG s) := by
      rw [hpc]
      exact ⟨rfl, Nat.add_pos_left (by decide) _⟩
    exact
      { h with
        phase := fun hnb => absurd hb hnb
        run := fun _ =>
          { h.run hb with
            notNone := fun hn => nomatch hn
            validate := fun hv => nomatch hv
            position := fun _ => hstart
            cells := fun _ => ⟨hw, hd⟩ } }
  | transfer hb => exact h.transferByte hb

/-- Every effect of a step keeps the invariant. -/
theorem State.Inv.stepEffect (hst : StepEffect s t) : t.Inv := by
  cases hst with
  | reset rest => exact inv_resetStep (s := afterInput s rest) h.cfg h.gridForm h.gridCells
  | sink => exact h.of_sameBlock rfl
  | inRun _ _ _ hu ht => exact (h.of_sameBlock hu.same).engineEffect ht
  | outside rest v _ hb hu ht =>
    have hstart : (afterInput s rest).Inv := h.of_sameBlock rfl
    exact ((hstart.gridAccess hb hu).of_sameBlock (sameBlock_regRdata _ v)).wrEffect ht

end

/-- Settles O29: nothing is written at power-up, and no run is in progress. -/
theorem resetStateSatisfiesTheInvariants : Obligations.ResetStateSatisfiesTheInvariants := by
  unfold Obligations.ResetStateSatisfiesTheInvariants
  exact ⟨inv_resetStep (s := State.reset) (by decide) Grid.wf_nil (fun _ h => absurd rfl h), fun h => nomatch h⟩

/-- Settles O30: a step answers one of its effects (`step_effect`), each of which keeps the invariant. -/
theorem everyStepKeepsTheInvariant : Obligations.EveryStepKeepsTheInvariant := by
  unfold Obligations.EveryStepKeepsTheInvariant
  exact fun s t h hst => h.stepEffect (step_effect hst)

end Sys2Proof.Machine
end

section
/-! PROOF. The family of the file: the closed form of its headers (R162), the byte of every phase as the file's byte (R202,
R203), its length (R206), and its pixels (R188). -/

namespace Sys2Proof.Machine

/-! ## The headers -/

/-- The mask 0xFF of the closed form keeps every bit of a byte (R162). -/
theorem and_255 (b : Byte) : b &&& 255#8 = b := BitVec.and_allOnes

/-- The 26 bytes of the two layouts are those of the closed form (R162). -/
theorem headerBytes_getElem? (c : Config) (G : Nat) {n : Nat} (h : n < 26) :
    (fileHeaderBytes c G ++ infoHeaderBytes G)[n]? = some (hdrByte c G n) := by
  rw [fileHeaderBytes_eq, infoHeaderBytes_eq]
  interval_cases n <;> simp [hdrByte, byteOf, and_255]

/-- Settles O45: the 26 offsets one by one are `headerBytes_getElem?`. -/
theorem headerClosedFormAgrees : Obligations.HeaderClosedFormAgrees := by
  unfold Obligations.HeaderClosedFormAgrees
  exact fun c G n h => headerBytes_getElem? c G h

/-- At the offsets of the file header the closed form is that layout's byte (R151, R162). -/
theorem fileHeaderBytes_getElem? (c : Config) (G : Nat) {n : Nat} (h : n < 14) :
    (fileHeaderBytes c G)[n]? = some (hdrByte c G n) := by
  rw [← headerBytes_getElem? c G (by omega), List.getElem?_append_left (by rw [fileHeaderBytes_eq]; exact h)]

/-- At the offsets of the info header the closed form is that layout's byte, counted from 14 (R156, R162). -/
theorem infoHeaderBytes_getElem? (c : Config) (G : Nat) {n : Nat} (hlo : 14 ≤ n) (hhi : n < 26) :
    (infoHeaderBytes G)[n - 14]? = some (hdrByte c G n) := by
  have hlen : (fileHeaderBytes c G).length = 14 := rfl
  rw [← headerBytes_getElem? c G hhi, List.getElem?_append_right (by omega), hlen]

/-! ## The byte of a phase is the byte of the file -/

/-- The byte a phase offers at a file offset, as the four meanings compute it (`engineTurn_eq_transferIn`). -/
def phaseByte (p : Phase) (s : State) (n : Nat) : Except Result Byte :=
  match p with
  | .none => tableByte none
  | .validate => tableByte none
  | .fileHeader => fileHeaderByte s n
  | .infoHeader => infoHeaderByte s n
  | .palette => paletteByte s n
  | .pixels => pixelByte s n

/-- In a byte-producing phase the engine's turn is the transfer of that phase's byte at `pc` (R203). -/
theorem engineTurn_eq_transferIn {s : State} (hb : s.state = .busy) (hp : s.phase.producesBytes = true) :
    engineTurn s = transferIn s.phase (phaseByte s.phase s s.pc.toNat) s := by
  cases hphase : s.phase with
  | none | validate => simp [hphase, Phase.producesBytes] at hp
  | fileHeader => exact engineTurn_of_decode (i := .fileHeader) hb (by rw [hphase]; rfl)
  | infoHeader => exact engineTurn_of_decode (i := .infoHeader) hb (by rw [hphase]; rfl)
  | palette => exact engineTurn_of_decode (i := .palette) hb (by rw [hphase]; rfl)
  | pixels => exact engineTurn_of_decode (i := .pixels) hb (by rw [hphase]; rfl)

/-- A transfer takes place while BUSY with a ready sink, where the phase has a byte at `pc` (R203). -/
theorem isTransfer_iff {s : State} {b : Byte} :
    IsTransfer s b ↔ s.state = .busy ∧ s.outReady = true ∧ phaseByte s.phase s s.pc.toNat = .ok b := by
  constructor
  · rintro ⟨hb, hr, hbyte⟩
    refine ⟨hb, hr, ?_⟩
    rcases hbyte with ⟨hp, h⟩ | ⟨hp, h⟩ | ⟨hp, h⟩ | ⟨hp, h⟩ <;> rw [hp] <;> exact h
  · rintro ⟨hb, hr, h⟩
    refine ⟨hb, hr, ?_⟩
    cases hp : s.phase <;> rw [hp] at h
    case none | validate => cases h
    case fileHeader => exact .inl ⟨rfl, h⟩
    case infoHeader => exact .inr (.inl ⟨rfl, h⟩)
    case palette => exact .inr (.inr (.inl ⟨rfl, h⟩))
    case pixels => exact .inr (.inr (.inr ⟨rfl, h⟩))

section
variable {s : State} {n : Nat}

/-- At the offsets of the headers the file's byte is the closed form of R162. -/
theorem encByte_of_header_offset (s : State) (h : n < 26) : encByte s n = some (hdrByte s.cfg (gridG s) n) := if_pos h

/-- From offset 74 on the file's byte is the pixel byte, up to the file's size (R202). -/
theorem encByte_of_pixel_offset (hlo : 74 ≤ n) (hhi : n < fileSize (gridG s)) : encByte s n = pixByte s n := by
  rw [encByte, if_neg (by omega), if_neg (by omega), if_pos hhi]

/-- Beyond its size the file has no byte (R202). -/
theorem encByte_of_beyond (h : fileSize (gridG s) ≤ n) : encByte s n = none := by
  have h74 : 74 ≤ n := (Nat.le_add_right ..).trans h
  rw [encByte, if_neg (by omega), if_neg (by omega), if_neg h.not_gt]

/-- The PIXELS byte at an offset of the phase is the file's, where its cell is written (R181, R202). -/
theorem pixelByte_ok_iff {b : Byte} (hlo : 74 ≤ n) (hhi : n < fileSize (gridG s)) :
    pixelByte s n = .ok b ↔ pixByte s n = some b := by
  refine ⟨fun h => (pixelByte_ok h).2.2, fun h => ?_⟩
  obtain ⟨v, hv, rfl⟩ := Option.map_eq_some_iff.mp h
  rw [pixelByte_eq_form hlo hhi hv, pixelByteAt_eq_form (scanIndex_vj_lt ..) (scanIndex_hj_lt ..)]

/-- The byte of the phase that owns an offset is the file's byte at it, and there is one where the other is (R202). -/
theorem phaseByte_ok_iff {b : Byte} : phaseByte (phaseOf n) s n = .ok b ↔ encByte s n = some b := by
  by_cases h14 : n < 14
  · rw [phaseOf, if_pos h14, encByte_of_header_offset s (by omega)]
    simp [phaseByte, fileHeaderByte, fileHeaderBytes_getElem? s.cfg (gridG s) h14, tableByte]
  by_cases h26 : n < 26
  · rw [phaseOf, if_neg h14, if_pos h26, encByte_of_header_offset s h26]
    simp [phaseByte, infoHeaderByte, h14, infoHeaderBytes_getElem? s.cfg (gridG s) (Nat.not_lt.mp h14) h26, tableByte]
  by_cases h74 : n < 74
  · rw [phaseOf, if_neg h14, if_neg h26, if_pos h74, encByte_of_palette_offset s (Nat.not_lt.mp h26) h74]
    simp [phaseByte, paletteByte_eq_palByte s (Nat.not_lt.mp h26) h74]
  rw [phaseOf, if_neg h14, if_neg h26, if_neg h74]
  by_cases hin : n < fileSize (gridG s)
  · rw [encByte_of_pixel_offset (Nat.not_lt.mp h74) hin]
    exact pixelByte_ok_iff (Nat.not_lt.mp h74) hin
  · rw [encByte_of_beyond (Nat.not_lt.mp hin)]
    simp [phaseByte, pixelByte, Nat.not_lt.mp hin, tableByte]

/-- Every byte of the file exists when the run's cells are written (R202, R252). -/
theorem exists_encByte (hw : cellsWritten s.grid (gridG s)) (h : n < fileSize (gridG s)) : ∃ b, encByte s n = some b := by
  by_cases h26 : n < 26
  · exact ⟨_, encByte_of_header_offset s h26⟩
  by_cases h74 : n < 74
  · exact ⟨_, encByte_of_palette_offset s (Nat.not_lt.mp h26) h74⟩
  have hG : 0 < gridG s := by
    by_contra h0
    obtain h0 : gridG s = 0 := by omega
    rw [h0] at h
    exact h74 h
  obtain ⟨v, hv⟩ := Option.ne_none_iff_exists'.mp (hw _ (cellAddr_lt (scanIndex_hi_lt hG (n - 74))))
  exact ⟨_, by rw [encByte_of_pixel_offset (Nat.not_lt.mp h74) h, pixByte, hv]; rfl⟩

end

/-- The end mark of the byte at an offset: on the last byte of the file only (R54). -/
def lastMark (s : State) (n : Nat) : Bool := decide (n = fileSize (gridG s) - 1)

theorem streamByte_eq (s : State) (n : Nat) :
    streamByte s n = (encByte s n).map fun b => { data := b, last := lastMark s n } := rfl

theorem streamByte_of_encByte {s : State} {n : Nat} {b : Byte} (h : encByte s n = some b) :
    streamByte s n = some { data := b, last := lastMark s n } := by rw [streamByte_eq, h, Option.map_some]

/-- A transfer hands over the file's byte at `pc` (R202, R203). -/
theorem IsTransfer.encByte_eq {s : State} {b : Byte} (h : IsTransfer s b) : encByte s s.pc.toNat = some b := by
  obtain ⟨-, hphase, -⟩ := h.position
  obtain ⟨-, -, hbyte⟩ := isTransfer_iff.mp h
  rw [← phaseByte_ok_iff, ← hphase, hbyte]

/-- A transfer hands over the file's byte at `pc` with its end mark (R54, R203). -/
theorem IsTransfer.streamByte_eq {s : State} {b : Byte} (h : IsTransfer s b) :
    streamByte s s.pc.toNat = some { data := b, last := lastMark s s.pc.toNat } := streamByte_of_encByte h.encByte_eq

/-! ## What a transfer changes -/

section
variable (s : State) (b : Byte)

@[simp] theorem transferByte_pc : (transferByte b s).pc = s.pc + 1 := by simp [transferByte]
@[simp] theorem gridG_transferByte : gridG (transferByte b s) = gridG s := by simp [transferByte]
@[simp] theorem transferByte_inputs : (transferByte b s).inputs = s.inputs := by simp [transferByte]
@[simp] theorem transferByte_outReady : (transferByte b s).outReady = s.outReady := by simp [transferByte]
@[simp] theorem transferByte_badcmd : (transferByte b s).badcmd = s.badcmd := by simp [transferByte]
@[simp] theorem transferByte_busywr : (transferByte b s).busywr = s.busywr := by simp [transferByte]
@[simp] theorem transferByte_regRdata : (transferByte b s).regRdata = s.regRdata := by simp [transferByte]
@[simp] theorem transferByte_gridRdata : (transferByte b s).gridRdata = s.gridRdata := by simp [transferByte]

/-- A transfer appends its byte with the mark to the stream (R54, R203). -/
theorem transferByte_out :
    (transferByte b s).out = s.out ++ [{ data := b, last := lastMark s s.pc.toNat }] := by
  simp [transferByte, lastMark]

/-- A transfer changes nothing a run reads (R65). -/
theorem transferByte_sameSnapshot : sameSnapshot s (transferByte b s) := by simp [sameSnapshot, transferByte]

/-- The transfer of the last byte ends the run in DONE, any other leaves STATE as it is (R203). -/
theorem transferByte_state :
    (transferByte b s).state = if s.pc.toNat = fileSize (gridG s) - 1 then .done else s.state := by
  rw [transferByte_eq]
  split <;> rfl

/-- Any other transfer goes to the phase of the next offset (R203, R204). -/
theorem transferByte_phase (hmore : s.pc.toNat ≠ fileSize (gridG s) - 1) :
    (transferByte b s).phase = phaseOf (s.pc.toNat + 1) := by
  rw [transferByte_eq, if_neg hmore]

end

end Sys2Proof.Machine
end

section
/-! PROOF. The family of the stream: what a step hands over (R202, R203), what the sink has of a run (R22), and how a run ends
(R205). -/

namespace Sys2Proof.Machine

/-! ## What a step hands over -/

/-- A REG write hands over nothing (R54). -/
theorem WrEffect.out_eq {wr : Option (RegOffset × Word)} {s t : State} (h : WrEffect wr s t) : t.out = s.out := by
  cases h with
  | stored _ _ ht => rcases ht with ⟨-, rfl⟩ | ⟨-, rfl⟩ | ⟨-, rfl⟩ | ⟨-, rfl⟩ <;> rfl
  | nothing | notExecuted | dropped | startFailed | started | cleared => rfl

/-- What a step hands over: nothing, or by a transfer in a run the file's byte at `pc` (R54, R203). -/
theorem StepEffect.out_cases {s t : State} (h : StepEffect s t) :
    t.out = s.out
    ∨ (s.state = .busy ∧ s.phase.producesBytes = true ∧ s.readyNext = true ∧ s.resetNext = false
        ∧ t.pc = s.pc + 1 ∧ ∃ b, streamByte s s.pc.toNat = some b ∧ t.out = s.out ++ [b]) := by
  cases h with
  | reset | sink => exact .inl rfl
  | outside _ _ _ _ hu ht => exact .inl (ht.out_eq.trans hu.out_eq)
  | @inRun u _ _ hr hb hu ht =>
    have hsame := hu.sameBlock_afterInput
    cases ht with
    | noStep | cellError | validated => exact .inl hsame.out_eq
    | transfer hst =>
      obtain ⟨hbytes, -, -⟩ := hst.position
      have hbyte := hst.streamByte_eq
      rw [hsame.streamByte_eq, hsame.pc_eq] at hbyte
      refine .inr ⟨hb, hsame.phase_eq ▸ hbytes, hu.ready.symm.trans hst.ready, hr, ?_, _, hbyte, ?_⟩
      · rw [transferByte_pc, hsame.pc_eq]
      · rw [transferByte_out, hsame.out_eq, hsame.pc_eq]

/-- Settles O17: the two cases are `StepEffect.out_cases`. -/
theorem everyByteIsEncByteAtPc : Obligations.EveryByteIsEncByteAtPc := by
  unfold Obligations.EveryByteIsEncByteAtPc
  exact fun s t h => (step_effect h).out_cases

/-! ## What the sink has of a run -/

section
variable {s t : State}

/-- What has been streamed is the same in a state with the same block. -/
theorem State.hasStreamed.of_sameBlock {k : Nat} (h : s.hasStreamed k) (hst : sameBlock s t) : t.hasStreamed k := by
  obtain ⟨earlier, run, hout, hlen, hbytes⟩ := h
  exact ⟨earlier, run, hst.out_eq.trans hout, hlen, fun n hn => (hbytes n hn).trans (hst.streamByte_eq n).symm⟩

/-- Of a run at its first offset nothing has been streamed yet. -/
theorem hasStreamed_zero (s : State) : s.hasStreamed 0 :=
  ⟨s.out, [], (List.append_nil _).symm, rfl, fun n hn => absurd hn (Nat.not_lt_zero n)⟩

/-- A transfer at `pc` adds the file's byte at `pc` to what has been streamed (R203). -/
theorem State.hasStreamed.transferByte {b : Byte} (h : s.hasStreamed s.pc.toNat) (hst : IsTransfer s b) :
    (transferByte b s).hasStreamed (s.pc.toNat + 1) := by
  obtain ⟨earlier, run, hout, hlen, hbytes⟩ := h
  refine ⟨earlier, run ++ [{ data := b, last := lastMark s s.pc.toNat }], ?_, by simp [hlen], fun n hn => ?_⟩
  · rw [transferByte_out, hout, List.append_assoc]
  rw [streamByte_eq_of_sameSnapshot (transferByte_sameSnapshot s b)]
  rcases Nat.lt_succ_iff_lt_or_eq.mp hn with hlt | rfl
  · rw [List.getElem?_append_left (hlen ▸ hlt), hbytes n hlt]
  · rw [hst.streamByte_eq, List.getElem?_append_right hlen.le, hlen, Nat.sub_self]
    rfl

theorem State.StreamInv.of_sameBlock (h : s.StreamInv) (hst : sameBlock s t) : t.StreamInv := by
  intro hb hp
  rw [hst.pc_eq]
  exact (h (hst.state_eq ▸ hb) (hst.phase_eq ▸ hp)).of_sameBlock hst

/-- The engine keeps the stream invariant: a run starts its bytes at offset 0, and a transfer moves `pc` with the stream. -/
theorem State.StreamInv.engineEffect (hinv : s.Inv) (h : s.StreamInv) (hst : EngineEffect s t) : t.StreamInv := by
  cases hst with
  | noStep => exact h
  | cellError => exact fun hb => nomatch hb
  | validated hb hp =>
    intro _ _
    have hpc : s.pc.toNat = 0 := by rw [(hinv.run hb).validate hp]; rfl
    exact hpc ▸ hasStreamed_zero _
  | transfer hst =>
    intro _ _
    obtain ⟨hbytes, -, hlt⟩ := hst.position
    rw [transferByte_pc, toNat_pc_succ (hinv.run hst.busy).size hlt]
    exact (h hst.busy hbytes).transferByte hst

/-- A REG write outside a run leaves no run that has produced a byte (R131, R132). -/
theorem WrEffect.streamInv {wr : Option (RegOffset × Word)} (hb : s.state ≠ .busy) (h : WrEffect wr s t) : t.StreamInv := by
  intro htb htp
  cases h with
  | nothing | notExecuted | dropped => exact absurd htb hb
  | stored _ _ ht => rcases ht with ⟨-, rfl⟩ | ⟨-, rfl⟩ | ⟨-, rfl⟩ | ⟨-, rfl⟩ <;> exact absurd htb hb
  | startFailed | cleared => cases htb
  | started => cases htp

/-- Every effect of a step keeps the stream invariant. -/
theorem State.StreamInv.stepEffect (hinv : s.Inv) (h : s.StreamInv) (hst : StepEffect s t) : t.StreamInv := by
  cases hst with
  | reset => exact fun hb => nomatch hb
  | sink => exact h.of_sameBlock rfl
  | inRun _ _ _ hu ht =>
    have hsame := hu.sameBlock_afterInput
    exact (h.of_sameBlock hsame).engineEffect (hinv.of_sameBlock hsame) ht
  | outside _ _ _ hb hu ht => exact ht.streamInv (hu.state_eq ▸ hb)

end

/-- Settles O31: every effect of a step keeps it (`State.StreamInv.stepEffect`). -/
theorem everyStepKeepsTheStream : Obligations.EveryStepKeepsTheStream := by
  unfold Obligations.EveryStepKeepsTheStream
  exact fun s t hinv h hst => h.stepEffect hinv (step_effect hst)

/-! ## How a run ends -/

/-- The engine leaves BUSY for DONE only by the transfer of the file's last byte (R203, R205). -/
theorem EngineEffect.done_cases {s t : State} (h : EngineEffect s t) (hb : s.state = .busy) (ht : t.state = .done) :
    ∃ b, IsTransfer s b ∧ s.pc.toNat = fileSize (gridG s) - 1 ∧ t = transferByte b s := by
  cases h with
  | noStep => rw [hb] at ht; cases ht
  | cellError => cases ht
  | validated => rw [show s.state = .done from ht] at hb; cases hb
  | @transfer b hst =>
    refine ⟨b, hst, ?_, rfl⟩
    by_contra hmore
    rw [transferByte_state, if_neg hmore, hb] at ht
    cases ht

/-- The engine's step into ERROR hands over nothing (R224). -/
theorem EngineEffect.out_eq_of_error {s t : State} (h : EngineEffect s t) (ht : t.state = .error) : t.out = s.out := by
  cases h with
  | noStep | cellError | validated => rfl
  | transfer hst =>
    rw [transferByte_state, hst.busy] at ht
    split at ht <;> cases ht

/-- A step that leaves ERROR behind hands over nothing (R224). -/
theorem StepEffect.out_eq_of_error {s t : State} (h : StepEffect s t) (ht : t.state = .error) : t.out = s.out := by
  cases h with
  | reset | sink => rfl
  | inRun _ _ _ hu he => exact (he.out_eq_of_error ht).trans hu.sameBlock_afterInput.out_eq
  | outside _ _ _ _ hu he => exact he.out_eq.trans hu.out_eq

/-- A step from BUSY to DONE is the transfer of the last byte in a state with the block of the step's (R205). -/
theorem StepEffect.done_cases {s t : State} (h : StepEffect s t) (hb : s.state = .busy) (ht : t.state = .done) :
    ∃ u b, sameBlock s u ∧ IsTransfer u b ∧ u.pc.toNat = fileSize (gridG u) - 1 ∧ t = transferByte b u := by
  cases h with
  | reset => cases ht
  | sink => rw [show s.state = .done from ht] at hb; cases hb
  | @inRun u _ _ _ _ hu he =>
    have hsame := hu.sameBlock_afterInput
    obtain ⟨b, hst, hlast, rfl⟩ := he.done_cases (hsame.state_eq.trans hb) ht
    exact ⟨u, b, hsame, hst, hlast, rfl⟩
  | outside _ _ _ hnb => exact absurd hb hnb

/-- Settles O32: the last transfer leaves `pc` at the file's size with the whole file streamed; a state in ERROR has `pc` 0 by
the invariant. -/
theorem endedRunGaveTheWholeFileOrNothing : Obligations.EndedRunGaveTheWholeFileOrNothing := by
  unfold Obligations.EndedRunGaveTheWholeFileOrNothing
  intro s t hinv hstream hstep
  have heff := step_effect hstep
  refine ⟨fun hb ht => ?_, fun ht => ⟨(hinv.stepEffect heff).position (.inr ht), by simp [errorWire, ht],
    heff.out_eq_of_error ht⟩⟩
  obtain ⟨u, b, hsame, hst, hlast, rfl⟩ := heff.done_cases hb ht
  obtain ⟨hbytes, -, hlt⟩ := hst.position
  have hsize : u.pc.toNat + 1 = fileSize (gridG s) := by
    rw [← hsame.gridG_eq]
    omega
  have hpc : (transferByte b u).pc.toNat = fileSize (gridG s) := by
    rw [transferByte_pc, toNat_pc_succ ((hinv.of_sameBlock hsame).run hst.busy).size hlt, hsize]
  obtain ⟨earlier, run, hout, hlen, hrun⟩ := ((hstream.of_sameBlock hsame) hst.busy hbytes).transferByte hst
  refine ⟨hpc, by simp [doneWire, ht], earlier, run, hout, hlen.trans hsize, fun n hn => ?_⟩
  rw [hrun n (hsize ▸ hn), streamByte_eq_of_sameSnapshot (transferByte_sameSnapshot u b), hsame.streamByte_eq]

end Sys2Proof.Machine
end

section
/-! PROOF. The family of the whole machine's rules: who changes STATE (R24), `pc` (R22) and the sticky flags (R27), how errors
are raised (R224), and what the host cannot change (R65, R203). -/

namespace Sys2Proof.Machine

section
variable {s t : State}

/-! ## STATE -/

/-- Out of BUSY the engine goes to ERROR by VALIDATE's error, or to DONE by a transfer (R24). -/
theorem EngineEffect.leaves_busy (h : EngineEffect s t) (hb : s.state = .busy) (ht : t.state ≠ .busy) :
    (s.phase = .validate ∧ t.state = .error ∧ t.errcode = .valCell) ∨ (t.state = .done ∧ t.out ≠ s.out) := by
  cases h with
  | noStep | validated => exact absurd hb ht
  | cellError _ hp => exact .inl ⟨hp, rfl, rfl⟩
  | @transfer b hst =>
    rw [transferByte_state, hb] at ht
    split at ht
    · next hlast => exact .inr ⟨by rw [transferByte_state, if_pos hlast], by simp [transferByte_out]⟩
    · exact absurd rfl ht

/-- Outside a run a REG write changes STATE by START or by CLEAR only (R24). -/
theorem WrEffect.changes_state {wr : Option (RegOffset × Word)} (h : WrEffect wr s t) (ht : t.state ≠ s.state) :
    (wr = some (0x000#12, 0x00000001#32) ∧ (t.state = .busy ∨ t.state = .error))
    ∨ (wr = some (0x000#12, 0x00000002#32) ∧ t.state = .idle) := by
  cases h with
  | nothing | notExecuted | dropped => exact absurd rfl ht
  | stored _ _ hstore => rcases hstore with ⟨-, rfl⟩ | ⟨-, rfl⟩ | ⟨-, rfl⟩ | ⟨-, rfl⟩ <;> exact absurd rfl ht
  | startFailed hwr => exact .inl ⟨hwr, .inr rfl⟩
  | started hwr => exact .inl ⟨hwr, .inl rfl⟩
  | cleared hwr => exact .inr ⟨hwr, rfl⟩

/-- A host transaction in a run leaves the block as it is (R65, R133, R135, R139). -/
theorem step_host_sameBlock {op : HostOp} {rest : List Input} (hb : s.state = .busy) (hi : s.inputs = .host op :: rest)
    (h : step s = .next t) : sameBlock s t := by
  rw [step_host hi] at h
  exact (hostStep_keepsRun (u := { s with inputs := rest }) hi hb h).same

/-- Settles O35: each clause is the case of `step_effect` that its hypotheses leave. -/
theorem stateChangesOnlyAsListed : Obligations.StateChangesOnlyAsListed := by
  unfold Obligations.StateChangesOnlyAsListed
  intro s t _ h
  have heff := step_effect h
  refine ⟨fun hb ht => ?_, fun hb ht => ?_, fun hb op rest hi => (step_host_sameBlock hb hi h).state_eq.trans hb⟩
  · cases heff with
    | reset _ hr => exact .inl ⟨hr, rfl⟩
    | sink => exact absurd hb ht
    | inRun _ _ _ hu he =>
      have hsame := hu.sameBlock_afterInput
      have hleft := he.leaves_busy (hsame.state_eq.trans hb) ht
      rw [hsame.phase_eq, hsame.out_eq] at hleft
      exact .inr hleft
    | outside _ _ _ hnb => exact absurd hb hnb
  · cases heff with
    | reset _ hr => exact .inl ⟨hr, rfl⟩
    | sink => exact absurd rfl ht
    | inRun _ _ hbusy => exact absurd hbusy hb
    | outside _ _ _ _ hu he => exact .inr (he.changes_state (fun h => ht (h.trans hu.state_eq)))

/-! ## pc -/

/-- A REG write changes `pc` to 0, by START or by CLEAR outside a run (R22). -/
theorem WrEffect.changes_pc {wr : Option (RegOffset × Word)} (h : WrEffect wr s t) (ht : t.pc ≠ s.pc) :
    t.pc = 0 ∧ (wr = some (0x000#12, 0x00000001#32) ∨ wr = some (0x000#12, 0x00000002#32)) := by
  cases h with
  | nothing | notExecuted | dropped => exact absurd rfl ht
  | stored _ _ hstore => rcases hstore with ⟨-, rfl⟩ | ⟨-, rfl⟩ | ⟨-, rfl⟩ | ⟨-, rfl⟩ <;> exact absurd rfl ht
  | startFailed hwr | started hwr => exact ⟨rfl, .inl hwr⟩
  | cleared hwr => exact ⟨rfl, .inr hwr⟩

/-- The engine changes `pc` by a transfer only, which adds 1 to it and one byte to the stream (R22, R203). -/
theorem EngineEffect.changes_pc (hinv : s.Inv) (h : EngineEffect s t) (ht : t.pc ≠ s.pc) :
    t.pc.toNat = s.pc.toNat + 1 ∧ t.out.length = s.out.length + 1 := by
  cases h with
  | noStep | cellError | validated => exact absurd rfl ht
  | transfer hst =>
    obtain ⟨-, -, hlt⟩ := hst.position
    rw [transferByte_pc, toNat_pc_succ (hinv.run hst.busy).size hlt, transferByte_out]
    exact ⟨rfl, List.length_append⟩

/-- Settles O36: the engine's change of `pc` is a transfer, the others are reset, START and CLEAR. -/
theorem pcCountsTransfers : Obligations.PcCountsTransfers := by
  unfold Obligations.PcCountsTransfers
  intro s t hinv h ht
  cases step_effect h with
  | reset _ hr => exact .inr ⟨rfl, rfl, .inl hr⟩
  | sink => exact absurd rfl ht
  | inRun _ _ hb hu he =>
    have hsame := hu.sameBlock_afterInput
    obtain ⟨hpc, hout⟩ := he.changes_pc (hinv.of_sameBlock hsame) (hsame.pc_eq ▸ ht)
    rw [hsame.pc_eq] at hpc
    rw [hsame.out_eq] at hout
    exact .inl ⟨hpc, hb, hout⟩
  | outside _ _ _ hb hu he =>
    obtain ⟨hpc, hwr⟩ := he.changes_pc (fun h => ht (h.trans hu.pc_eq))
    exact .inr ⟨hpc, he.out_eq.trans hu.out_eq, .inr ⟨hb, hwr⟩⟩

/-! ## The sticky flags -/

/-- The engine leaves both flags as they are (R27). -/
theorem EngineEffect.flags_eq (h : EngineEffect s t) : t.badcmd = s.badcmd ∧ t.busywr = s.busywr := by
  cases h with
  | noStep | cellError | validated => exact ⟨rfl, rfl⟩
  | transfer => exact ⟨transferByte_badcmd .., transferByte_busywr ..⟩

/-- Outside a run a REG write raises BADCMD by a reserved command, clears both flags by CLEAR, and else leaves both (R27). -/
theorem WrEffect.flags_cases {wr : Option (RegOffset × Word)} (hb : s.state ≠ .busy) (h : WrEffect wr s t) :
    (t.badcmd = s.badcmd ∧ t.busywr = s.busywr)
    ∨ (t.badcmd = true ∧ t.busywr = s.busywr ∧ ∃ w, wr = some (0x000#12, w) ∧ 3 ≤ w.toNat)
    ∨ (t.badcmd = false ∧ t.busywr = false ∧ wr = some (0x000#12, 0x00000002#32)) := by
  cases h with
  | nothing | startFailed | started => exact .inl ⟨rfl, rfl⟩
  | notExecuted hwr hd => exact .inr (.inl ⟨rfl, rfl, _, hwr, hd.resolve_right fun hbusy => hb hbusy.1⟩)
  | dropped _ _ hbusy => exact absurd hbusy hb
  | stored _ _ hstore => rcases hstore with ⟨-, rfl⟩ | ⟨-, rfl⟩ | ⟨-, rfl⟩ | ⟨-, rfl⟩ <;> exact .inl ⟨rfl, rfl⟩
  | cleared hwr => exact .inr (.inr ⟨rfl, rfl, hwr⟩)

/-- What a step does to BADCMD (R27). -/
theorem StepEffect.badcmd_cases (h : StepEffect s t) :
    t.badcmd = s.badcmd
    ∨ (t.badcmd = true ∧ ∃ w : Word, s.regWriteNext = some (0x000#12, w)
        ∧ (3 ≤ w.toNat ∨ (s.state = .busy ∧ (w.toNat = 1 ∨ w.toNat = 2))))
    ∨ (t.badcmd = false
        ∧ (s.resetNext = true ∨ (s.state ≠ .busy ∧ s.regWriteNext = some (0x000#12, 0x00000002#32)))) := by
  cases h with
  | reset _ hr => exact .inr (.inr ⟨rfl, .inl hr⟩)
  | sink => exact .inl rfl
  | inRun _ _ hb hu he =>
    rw [he.flags_eq.1]
    exact hu.badcmd.imp_right fun ⟨ht, w, hw, hcmd⟩ => .inl ⟨ht, w, hw, hcmd.imp_right fun h12 => ⟨hb, h12⟩⟩
  | outside _ _ _ hb hu he =>
    rcases he.flags_cases (by rwa [hu.same]) with ⟨ht, -⟩ | ⟨ht, -, w, hw, h3⟩ | ⟨ht, -, hw⟩
    · exact .inl (ht.trans hu.badcmd_eq)
    · exact .inr (.inl ⟨ht, w, hw, .inl h3⟩)
    · exact .inr (.inr ⟨ht, .inr ⟨hb, hw⟩⟩)

/-- What a step does to BUSYWR (R27). -/
theorem StepEffect.busywr_cases (h : StepEffect s t) :
    t.busywr = s.busywr
    ∨ (t.busywr = true ∧ s.state = .busy
        ∧ ((∃ o d, s.regWriteNext = some (o, d) ∧ isConfigOffset o) ∨ ∃ w, s.gridWriteNext = some w))
    ∨ (t.busywr = false
        ∧ (s.resetNext = true ∨ (s.state ≠ .busy ∧ s.regWriteNext = some (0x000#12, 0x00000002#32)))) := by
  cases h with
  | reset _ hr => exact .inr (.inr ⟨rfl, .inl hr⟩)
  | sink => exact .inl rfl
  | inRun _ _ hb hu he =>
    rw [he.flags_eq.2]
    exact hu.busywr.imp_right fun ⟨ht, hw⟩ => .inl ⟨ht, hb, hw⟩
  | outside _ _ _ hb hu he =>
    rcases he.flags_cases (by rwa [hu.same]) with ⟨-, ht⟩ | ⟨-, ht, -⟩ | ⟨-, ht, hw⟩
    · exact .inl (ht.trans hu.busywr_eq)
    · exact .inl (ht.trans hu.busywr_eq)
    · exact .inr (.inr ⟨ht, .inr ⟨hb, hw⟩⟩)

end

/-- Where a flag either stays, or is 1 for the reason `A`, or is 0 for the reason `C`, its changes have their reasons. -/
theorem flag_changes {b b' : Bool} {A C : Prop} (h : b' = b ∨ (b' = true ∧ A) ∨ (b' = false ∧ C)) :
    (b = false → b' = true → A) ∧ (b = true ∧ b' = false → C) := by
  rcases h with rfl | ⟨rfl, ha⟩ | ⟨rfl, hc⟩
  · exact ⟨fun h0 h1 => by simp [h0] at h1, fun ⟨h1, h0⟩ => by simp [h1] at h0⟩
  · exact ⟨fun _ _ => ha, fun ⟨_, h⟩ => nomatch h⟩
  · exact ⟨fun _ h => (nomatch h), fun _ => hc⟩

/-- Settles O39: each flag changes as `StepEffect.badcmd_cases` and `StepEffect.busywr_cases` say. -/
theorem stickyFlagsChangeOnlyAsListed : Obligations.StickyFlagsChangeOnlyAsListed := by
  unfold Obligations.StickyFlagsChangeOnlyAsListed
  intro s t h
  obtain ⟨hbadSet, hbadCleared⟩ := flag_changes (step_effect h).badcmd_cases
  obtain ⟨hbusySet, hbusyCleared⟩ := flag_changes (step_effect h).busywr_cases
  exact ⟨hbadSet, hbusySet, fun hcleared => hcleared.elim hbadCleared hbusyCleared⟩

/-! ## Errors -/

/-- Settles O42: of all that `exec` can do only a failing START and VALIDATE's error enter ERROR; VALIDATE is at `pc` 0 by the
invariant. -/
theorem errorsArePreciseAndBeforeTheFirstByte : Obligations.ErrorsArePreciseAndBeforeTheFirstByte := by
  unfold Obligations.ErrorsArePreciseAndBeforeTheFirstByte
  intro i s t hinv h ht hfrom
  rcases exec_next_cases h with ⟨hstart, -, rfl⟩ | ⟨-, hb, rfl⟩ | ⟨rfl, -, code, info, hc, rfl⟩ | ⟨-, -, -, rfl⟩
    | ⟨-, -, rfl⟩ | ⟨rfl, hb, hp, a, -, -, rfl⟩ | ⟨-, hb, -, -, -, rfl⟩ | ⟨b, hst, rfl⟩
  · exact absurd ht (hfrom.resolve_right hstart)
  · simp [hb] at ht
  · exact ⟨rfl, .inl ⟨rfl, startCheck_code hc⟩⟩
  · cases ht
  · cases ht
  · have hpc : s.pc = 0 := (hinv.run hb).validate hp
    exact ⟨by rw [← hpc]; rfl, .inr ⟨rfl, hp, hpc, rfl⟩⟩
  · simp [hb] at ht
  · rw [transferByte_state, hst.busy] at ht
    split at ht <;> cases ht

/-! ## The offered byte -/

/-- What the OUT port offers is the same in a state with the same block (R37, R54). -/
theorem sameBlock.offered_eq {s t : State} (h : sameBlock s t) : offered t = offered s := by
  rw [offered, offered, outValid, outValid, h.state_eq, h.phase_eq, h.pc_eq, h.streamByte_eq]

/-- In a run in a byte-producing phase a byte is offered (R37, R181). -/
theorem exists_offered {s : State} (hinv : s.Inv) (hb : s.state = .busy) (hp : s.phase.producesBytes = true) :
    ∃ b, offered s = some b := by
  have hrun := hinv.run hb
  obtain ⟨-, hlt⟩ := hrun.position hp
  obtain ⟨hw, -⟩ := hrun.cells hp
  obtain ⟨b, hbyte⟩ := exists_encByte hw hlt
  obtain ⟨hnone, hval⟩ := Phase.producesBytes_iff.mp hp
  have hvalid : outValid s = true := by simp [outValid, hb, hnone, hval]
  exact ⟨_, by rw [offered, if_pos hvalid, streamByte_of_encByte hbyte]⟩

/-- Settles O41: the transaction keeps the block (`step_host_sameBlock`), and what is offered is read from the block. -/
theorem hostCannotChangeTheOfferedByte : Obligations.HostCannotChangeTheOfferedByte := by
  unfold Obligations.HostCannotChangeTheOfferedByte
  exact fun s t op rest hinv hb hi h => ⟨(step_host_sameBlock hb hi h).offered_eq, exists_offered hinv hb⟩

end Sys2Proof.Machine
end

section
/-! PROOF. The family of the single steps: engine steps that are not enabled (R20, R263), cells never written (R252), GR
(R140), reset (R250), and what the meanings do not read (R27, R202). -/

namespace Sys2Proof.Machine

/-! ## Engine steps that are not enabled -/

/-- A byte-producing phase that is not enabled changes nothing (R203, log 4). -/
theorem transferIn_not_enabled {p : Phase} {s : State} (byte : Except Result Byte)
    (h : ¬(s.state = .busy ∧ s.phase = p ∧ s.outReady = true)) : transferIn p byte s = .next s := if_neg h

/-- Settles O19: each step is its own test, failed; the four phases share `transferIn_not_enabled`. -/
theorem engineStepsNotEnabledChangeNothing : Obligations.EngineStepsNotEnabledChangeNothing := by
  unfold Obligations.EngineStepsNotEnabledChangeNothing
  exact fun s => ⟨fun hb => if_neg hb, fun h => if_neg h, transferIn_not_enabled _, transferIn_not_enabled _,
    transferIn_not_enabled _, transferIn_not_enabled _⟩

/-- Settles O18: the engine has the turn, and its transfer is not enabled without a ready sink. -/
theorem unreadySinkHoldsTheByte : Obligations.UnreadySinkHoldsTheByte := by
  unfold Obligations.UnreadySinkHoldsTheByte
  intro s hb hp hready hi
  rw [step_no_input hi, engineTurn_eq_transferIn hb hp]
  exact transferIn_not_enabled _ (by simp [hready])

/-! ## Cells -/

/-- VALIDATE, enabled, refuses the lowest cell of the run that was never written (R252, log 1). -/
theorem exec_validate_of_unwritten {s : State} {a : Nat} (hb : s.state = .busy) (hp : s.phase = .validate)
    (ha : a < gridG s * gridG s) (hnone : s.grid.read a = none) (hlow : ∀ b, b < a → s.grid.read b ≠ none) :
    exec .validate s = .refused (.unwrittenCell a) := by
  have hfirst : firstCell (fun v => v == none) s.grid (gridG s * gridG s) = some a :=
    firstCell_eq_some.mpr ⟨ha, by simp [hnone], fun b hlt => beq_eq_false_iff_ne.mpr (hlow b hlt)⟩
  rw [exec, execValidate, if_pos ⟨hb, hp⟩, hfirst]

/-- GR refuses an existing cell that was never written (R252, log 1). -/
theorem hostGr_of_unwritten {b : State} {a : GridAddr} (ha : a.toNat < cellCount b.cfg)
    (hnone : b.grid.read a.toNat = none) (s : State) : hostGr b a s = .refused (.unwrittenCell a.toNat) := by
  rw [hostGr, if_pos ha, hnone]

/-- Settles O12: the two refusals are `exec_validate_of_unwritten` and `hostGr_of_unwritten`. -/
theorem neverWrittenCellsAreRefused : Obligations.NeverWrittenCellsAreRefused := by
  unfold Obligations.NeverWrittenCellsAreRefused
  refine ⟨fun s a => exec_validate_of_unwritten, fun s a rest hi ha hnone => ?_⟩
  rw [step_host hi]
  exact hostGr_of_unwritten (b := { s with inputs := rest }) ha hnone _

/-- Settles O25: the two contents GR answers with are those of `gridAnswer`. -/
theorem gridReadReturnsTheCell : Obligations.GridReadReturnsTheCell := by
  unfold Obligations.GridReadReturnsTheCell
  exact fun s a rest hi => ⟨fun v ha hv => (step_gr_next_iff hi).mpr ⟨v, .inl ⟨ha, hv⟩, rfl⟩,
    fun ha => (step_gr_next_iff hi).mpr ⟨0, .inr ⟨ha, rfl⟩, rfl⟩⟩

/-! ## Reset -/

/-- A reset as a step: the step's own reset, or that of a clock edge (R250, R68). -/
theorem step_reset {s : State} {i : Input} {rest : List Input} (hi : s.inputs = i :: rest) (hr : i.isReset = true) :
    step s = .next (resetStep (afterInput s rest)) := by
  cases i with
  | host | engine | sink => cases hr
  | reset => simp [step, hi, inputStep, afterInput, State.readyNext]
  | edge p =>
    have hrst : p.rst = true := hr
    simp [step, hi, inputStep, clockEdge, hrst, afterInput, State.readyNext]

/-- STATUS reads 0 after a reset (R23, R250). -/
theorem statusWord_resetStep (s : State) : statusWord (resetStep s) = 0 := by
  apply BitVec.eq_of_toNat_eq
  rw [statusWord_toNat]
  rfl

/-- STATUS where START has failed its first check straight after a reset (R23, R39). -/
theorem statusWord_failed_after_reset (s : State) (info : Word) :
    statusWord (raiseError .valGridSize info (forgetRun (resetStep s))) = 0x00000103#32 := by
  apply BitVec.eq_of_toNat_eq
  rw [statusWord_toNat]
  rfl

/-- Settles O27: the step is `step_reset`, and every register of `resetStep` is written out. -/
theorem resetClearsTheRegistersAndKeepsGrid : Obligations.ResetClearsTheRegistersAndKeepsGrid := by
  unfold Obligations.ResetClearsTheRegistersAndKeepsGrid
  intro s i rest hi hr
  refine ⟨_, step_reset hi hr, rfl, rfl, rfl, statusWord_resetStep _, ?_, ?_, rfl⟩
  · rintro rfl
    simp [afterInput, State.readyNext, hi]
  · rintro p rfl
    simp [afterInput, State.readyNext, hi]

/-- Settles O28: after a reset the size is 0, so START's first check fires with it. -/
theorem startStraightAfterResetFails : Obligations.StartStraightAfterResetFails := by
  unfold Obligations.StartStraightAfterResetFails
  intro s t hr h
  obtain ⟨i, rest, hi, hreset⟩ : ∃ i rest, s.inputs = i :: rest ∧ i.isReset = true := by
    cases hi : s.inputs with
    | nil => simp [State.resetNext, hi] at hr
    | cons i rest => exact ⟨i, rest, rfl, by simpa [State.resetNext, hi] using hr⟩
  obtain rfl := Host.Outcome.next.inj ((step_reset hi hreset).symm.trans h)
  exact ⟨_, exec_start_of_check (by simp) (startCheck_of_size_zero rfl), rfl, rfl, rfl, rfl,
    statusWord_failed_after_reset ..⟩

/-! ## What the meanings do not read -/

/-- Settles O50: it is `streamByte_eq_of_sameSnapshot`. -/
theorem fileIsAFunctionOfTheSnapshot : Obligations.FileIsAFunctionOfTheSnapshot := by
  unfold Obligations.FileIsAFunctionOfTheSnapshot
  exact fun s t n h => streamByte_eq_of_sameSnapshot h n

/-- Two outcomes of one kind whose next states are related by `R`; a stop has the same reason. -/
def related (R : State → State → Prop) : Result → Result → Prop
  | .next s, .next t => R s t
  | .fault a, .fault b => a = b
  | .refused a, .refused b => a = b
  | _, _ => False

/-- The model's comparison of outcomes is one of these. -/
theorem sameUpTo_eq_related (f : State → State) : sameUpTo f = related fun s t => f s = f t := by
  funext r q
  cases r <;> cases q <;> rfl

/-- `f` changes nothing that a meaning reads, and `R` relates what each update makes of the changed state to what it makes of
the state itself. -/
structure Unread (f : State → State) (R : State → State → Prop) : Prop where
  same        : ∀ s, sameBlock s (f s)
  ready       : ∀ s, (f s).outReady = s.outReady
  unchanged   : ∀ s, R (f s) s
  notExecuted : ∀ s, R (setBadcmd (f s)) (setBadcmd s)
  startFailed : ∀ code info s, R (raiseError code info (forgetRun (f s))) (raiseError code info (forgetRun s))
  started     : ∀ s, R { forgetRun (f s) with state := .busy, phase := .validate }
                  { forgetRun s with state := .busy, phase := .validate }
  cleared     : ∀ s, R (returnToIdle (f s)) (returnToIdle s)
  cellError   : ∀ code info s, R (raiseError code info (f s)) (raiseError code info s)
  validated   : ∀ s, R { f s with phase := .fileHeader } { s with phase := .fileHeader }
  transfer    : ∀ b s, R (transferByte b (f s)) (transferByte b s)

section
variable {f : State → State} {R : State → State → Prop} (h : Unread f R) (s : State)
include h

theorem Unread.execStart : related R (execStart (f s)) (execStart s) := by
  have hcheck : startCheck (f s) = startCheck s := by rw [h.same s]; rfl
  rw [Machine.execStart, Machine.execStart, (h.same s).state_eq, hcheck]
  split
  · exact h.notExecuted s
  · split
    · exact h.startFailed _ _ s
    · exact h.started s

theorem Unread.execClear : related R (execClear (f s)) (execClear s) := by
  rw [Machine.execClear, Machine.execClear, (h.same s).state_eq]
  split
  · exact h.notExecuted s
  · exact h.cleared s

theorem Unread.execValidate : related R (execValidate (f s)) (execValidate s) := by
  have hvalidated := h.validated s
  dsimp only at hvalidated
  rw [(h.same s).state_eq, (h.same s).grid_eq] at hvalidated
  rw [Machine.execValidate, Machine.execValidate, (h.same s).state_eq, (h.same s).phase_eq, (h.same s).grid_eq,
    (h.same s).gridG_eq]
  split
  · split
    · exact rfl
    · split
      · exact h.cellError _ _ s
      · exact hvalidated
  · exact h.unchanged s

/-- A transfer reads nothing beyond its byte that `f` changes. -/
theorem Unread.transferIn (p : Phase) {byte byte' : Except Result Byte} (hsame : byte' = byte)
    (hbyte : ∀ u, byte ≠ .error (.next u)) : related R (transferIn p byte' (f s)) (transferIn p byte s) := by
  rw [hsame, Machine.transferIn.eq_def, Machine.transferIn.eq_def, (h.same s).state_eq, (h.same s).phase_eq, h.ready s]
  split
  · cases byte with
    | ok b => exact h.transfer b s
    | error r =>
      cases r with
      | next u => exact absurd rfl (hbyte u)
      | fault | refused => exact rfl
  · exact h.unchanged s

/-- No meaning reads what `f` changes: the outcomes before and after it are related. -/
theorem Unread.exec (i : Instr) : related R (exec i (f s)) (exec i s) := by
  cases i with
  | nop => exact h.unchanged s
  | start => exact h.execStart s
  | clear => exact h.execClear s
  | validate => exact h.execValidate s
  | fileHeader => exact h.transferIn s _ (by rw [h.same s]; rfl) (fileHeaderByte_ne_next s s.pc.toNat)
  | infoHeader => exact h.transferIn s _ (by rw [h.same s]; rfl) (infoHeaderByte_ne_next s s.pc.toNat)
  | palette => exact h.transferIn s _ (by rw [h.same s]; rfl) (paletteByte_ne_next s s.pc.toNat)
  | pixels => exact h.transferIn s _ (by rw [h.same s]; rfl) (pixelByte_ne_next s s.pc.toNat)

end

/-- The state with other sticky flags. -/
def withFlags (b w : Bool) (s : State) : State := { s with badcmd := b, busywr := w }

/-- The flags are not read: each update commutes with changing them, apart from the flags themselves. -/
theorem unread_withFlags (b w : Bool) : Unread (withFlags b w) fun s t => clearFlags s = clearFlags t where
  same _ := rfl
  ready _ := rfl
  unchanged _ := rfl
  notExecuted _ := rfl
  startFailed _ _ _ := rfl
  started _ := rfl
  cleared _ := rfl
  cellError _ _ _ := rfl
  validated _ := rfl
  transfer v s := by
    have hpos : (withFlags b w s).pc.toNat = fileSize (gridG (withFlags b w s)) - 1
        ↔ s.pc.toNat = fileSize (gridG s) - 1 := Iff.rfl
    rw [transferByte_eq, transferByte_eq]
    simp only [hpos]
    split <;> rfl

/-- Settles O40: the flags are among what no meaning reads (`Unread.exec`). -/
theorem stickyFlagsInfluenceNothing : Obligations.StickyFlagsInfluenceNothing := by
  unfold Obligations.StickyFlagsInfluenceNothing
  intro i s b w
  rw [sameUpTo_eq_related]
  exact (unread_withFlags b w).exec s i

end Sys2Proof.Machine
end

section
/-! PROOF. The family of progress: why a step stops (R252, logs 1, 12, 13), and that an accepted START runs to DONE (R142). -/

namespace Sys2Proof.Machine

/-! ## The engine in a run -/

/-- In a run in a byte-producing phase with a ready sink the engine's turn is a transfer (R181, R203). -/
theorem engineTurn_of_ready {s : State} (hb : s.state = .busy) (hrun : s.RunInv) (hp : s.phase.producesBytes = true)
    (hr : s.outReady = true) : ∃ b, IsTransfer s b ∧ engineTurn s = .next (transferByte b s) := by
  obtain ⟨hphase, hlt⟩ := hrun.position hp
  obtain ⟨hw, -⟩ := hrun.cells hp
  obtain ⟨b, hbyte⟩ := exists_encByte hw hlt
  have hoffered : phaseByte s.phase s s.pc.toNat = .ok b := by
    rw [hphase]
    exact phaseByte_ok_iff.mpr hbyte
  exact ⟨b, isTransfer_iff.mpr ⟨hb, hr, hoffered⟩,
    by rw [engineTurn_eq_transferIn hb hp, hoffered, transferIn_enabled hb rfl hr]⟩

/-- In a run in a byte-producing phase the engine's turn answers a next state, whatever the sink does (R181). -/
theorem exists_engineTurn {s : State} (hb : s.state = .busy) (hrun : s.RunInv) (hp : s.phase.producesBytes = true) :
    ∃ t, engineTurn s = .next t := by
  by_cases hr : s.outReady = true
  · obtain ⟨b, -, h⟩ := engineTurn_of_ready hb hrun hp hr
    exact ⟨_, h⟩
  · exact ⟨s, by rw [engineTurn_eq_transferIn hb hp, transferIn_not_enabled _ fun ⟨_, _, h⟩ => hr h]⟩

/-! ## Why a step stops -/

/-- The result is a next state, or the refusal of a cell that `g` has never had written (log 1). -/
def answersOn (g : Grid) (r : Result) : Prop := (∃ t, r = .next t) ∨ ∃ a, r = .refused (.unwrittenCell a) ∧ g.read a = none

theorem answersOn_next (g : Grid) (t : State) : answersOn g (.next t) := .inl ⟨t, rfl⟩

/-- One result after another answers when both do. -/
theorem answersOn_andThen {g : Grid} {r : Result} {f : State → Result} (hr : answersOn g r)
    (hf : ∀ t, r = .next t → answersOn g (f t)) : answersOn g (andThen r f) := by
  rcases hr with ⟨t, rfl⟩ | ⟨a, rfl, ha⟩
  · exact hf t rfl
  · exact .inr ⟨a, rfl, ha⟩

/-- A WR never stops (R134). -/
theorem answersOn_hostWr (g : Grid) (o : RegOffset) (d : Word) (s : State) : answersOn g (hostWr o d s) := by
  by_cases ho : o = 0x000#12
  · subst ho
    show answersOn g (writeCmd d s)
    rw [writeCmd]
    split
    · next i hi =>
      rcases decodeCmd_ok_cases hi with ⟨-, rfl⟩ | ⟨-, rfl⟩ | ⟨-, rfl⟩
      · exact answersOn_next g s
      · rcases execStart_cases s with ⟨-, e⟩ | ⟨-, _, _, -, e⟩ | ⟨-, -, e⟩ <;> exact .inl ⟨_, e⟩
      · rcases execClear_cases s with ⟨-, e⟩ | ⟨-, e⟩ <;> exact .inl ⟨_, e⟩
    · exact answersOn_next g _
  · by_cases hcfg : isConfigOffset o
    · by_cases hb : s.state = .busy
      · exact .inl ⟨_, hostWr_config_of_busy hcfg hb⟩
      · obtain ⟨t, ht⟩ : ∃ t, storesConfig o d s t := by
          rcases hcfg with h | h | h | h
          · exact ⟨_, .inl ⟨h, rfl⟩⟩
          · exact ⟨_, .inr (.inl ⟨h, rfl⟩)⟩
          · exact ⟨_, .inr (.inr (.inl ⟨h, rfl⟩))⟩
          · exact ⟨_, .inr (.inr (.inr ⟨h, rfl⟩))⟩
        exact .inl ⟨t, hostWr_of_storesConfig hb ht⟩
    · exact .inl ⟨s, hostWr_ignored ho hcfg d s⟩

/-- A GW never stops (R139). -/
theorem answersOn_hostGw (g : Grid) (a : GridAddr) (v : Cell) (s : State) : answersOn g (hostGw a v s) := by
  by_cases hb : s.state = .busy
  · exact .inl ⟨_, hostGw_of_busy hb⟩
  · rcases Nat.lt_or_ge a.toNat (cellCount s.cfg) with ha | ha
    · exact .inl ⟨_, hostGw_of_cell hb ha⟩
    · exact .inl ⟨_, hostGw_of_no_cell hb ha⟩

/-- A GR stops only on a cell never written (R140, R252). -/
theorem answersOn_hostGr (b : State) (a : GridAddr) (s : State) : answersOn b.grid (hostGr b a s) := by
  rcases Nat.lt_or_ge a.toNat (cellCount b.cfg) with ha | ha
  · cases hcell : b.grid.read a.toNat with
    | none => exact .inr ⟨_, hostGr_of_unwritten ha hcell s, hcell⟩
    | some v => exact .inl ⟨_, hostGr_next_iff.mpr ⟨v, .inl ⟨ha, hcell⟩, rfl⟩⟩
  · exact .inl ⟨_, hostGr_next_iff.mpr ⟨0, .inr ⟨ha, rfl⟩, rfl⟩⟩

/-- A host transaction stops only on a cell never written. -/
theorem answersOn_hostStep (op : HostOp) (s : State) : answersOn s.grid (hostStep op s) := by
  cases op with
  | wr o d => exact answersOn_hostWr s.grid o d s
  | rd o => exact answersOn_next s.grid _
  | gw a v => exact answersOn_hostGw s.grid a v s
  | gr a => exact answersOn_hostGr s a s

/-- In a state of the invariant the engine's turn stops only where VALIDATE meets a cell never written (R180, R252). -/
theorem answersOn_engineTurn {s : State} (hinv : s.Inv) : answersOn s.grid (engineTurn s) := by
  by_cases hb : s.state = .busy
  · have hrun := hinv.run hb
    by_cases hval : s.phase = .validate
    · have hturn : engineTurn s = execValidate s := engineTurn_of_decode (i := .validate) hb (by rw [hval]; rfl)
      rw [hturn]
      rcases execValidate_cases s with ⟨-, e⟩ | ⟨-, -, ⟨a, -, hnone, e⟩ | ⟨-, ⟨a, -, -, -, e⟩ | ⟨-, e⟩⟩⟩
      · exact .inl ⟨_, e⟩
      · exact .inr ⟨a, e, hnone⟩
      · exact .inl ⟨_, e⟩
      · exact .inl ⟨_, e⟩
    · exact .inl (exists_engineTurn hb hrun (Phase.producesBytes_iff.mpr ⟨hrun.notNone, hval⟩))
  · exact .inl ⟨s, if_neg hb⟩

/-- A clock edge without reset, with at most one access on each port: the GRID access, the REG access and the engine's step
(R68). -/
theorem clockEdge_of_wf {p : Pins} (hrst : p.rst = false) (hwf : p.wf = true) (s : State) :
    clockEdge p s =
      andThen (edgeGrid p { s with outReady := p.outReady } { s with outReady := p.outReady }) fun s1 =>
        andThen (edgeReg p { s with outReady := p.outReady } s1) fun s2 =>
          edgeEngine { s with outReady := p.outReady } s2 := by
  simp [clockEdge, hrst, hwf]

/-- In a state of the invariant a clock edge with at most one access on each port stops only on a cell never written
(R68). -/
theorem answersOn_clockEdge {s : State} {p : Pins} {rest : List Input} (hinv : s.Inv) (hi : s.inputs = .edge p :: rest)
    (hrst : p.rst = false) (hwf : p.wf = true) : answersOn s.grid (clockEdge p { s with inputs := rest }) := by
  rw [clockEdge_of_wf hrst hwf]
  simp only [← afterInput_edge hi]
  refine answersOn_andThen ?grid fun s1 h1 => answersOn_andThen ?reg fun s2 h2 => ?engine
  case grid =>
    unfold edgeGrid
    split
    · exact answersOn_hostGw ..
    · split
      · exact answersOn_hostGr (afterInput s rest) p.gridAddr _
      · exact answersOn_next _ _
  case reg =>
    unfold edgeReg
    split
    · exact answersOn_hostWr ..
    · split <;> exact answersOn_next _ _
  case engine =>
    unfold edgeEngine
    split
    · next hb =>
      have hs1 := edgeGrid_keepsRun (u := afterInput s rest) hi hrst hb h1
      obtain ⟨v, hwr⟩ := edgeReg_effect hi hrst h2
      have hb1 : s1.state = .busy := hs1.same.state_eq.trans hb
      have hsame : sameBlock s s2 := (hs1.trans ((KeepsRun.of_regRdata v).trans (hwr.keepsRun hb1))).sameBlock_afterInput
      rw [← hsame.grid_eq]
      exact answersOn_engineTurn (hinv.of_sameBlock hsame)
    · exact answersOn_next _ _

/-- From a state of the invariant a step answers, or is refused for two accesses on one port (logs 1, 12, 13). -/
theorem step_answers {s : State} (hinv : s.Inv) :
    answersOn s.grid (step s)
    ∨ (step s = .refused .twoAccessesOnePort ∧ ∃ p rest, s.inputs = .edge p :: rest ∧ p.wf = false) := by
  cases hi : s.inputs with
  | nil =>
    rw [step_no_input hi]
    exact .inl (answersOn_engineTurn hinv)
  | cons i rest =>
    have hstep : step s = inputStep i { s with inputs := rest } := by simp only [step, hi]
    rw [hstep]
    cases i with
    | host op => exact .inl (answersOn_hostStep op _)
    | engine => exact .inl (answersOn_engineTurn (s := { s with inputs := rest }) (hinv.of_sameBlock rfl))
    | sink | reset => exact .inl (answersOn_next _ _)
    | edge p =>
      cases hrst : p.rst with
      | true => exact .inl (.inl ⟨_, if_pos hrst⟩)
      | false =>
      cases hwf : p.wf with
      | true => exact .inl (answersOn_clockEdge hinv hi hrst hwf)
      | false => exact .inr ⟨by simp [inputStep, clockEdge, hrst, hwf], p, rest, rfl, hwf⟩

/-- Settles O34: a step from the invariant does what `step_answers` says, and a byte-producing phase goes on by
`exists_engineTurn`. -/
theorem noStopOnceTheBytesFlow : Obligations.NoStopOnceTheBytesFlow := by
  unfold Obligations.NoStopOnceTheBytesFlow
  intro s hinv
  refine ⟨fun e he => ?_, fun hb hp hi => ?_, fun r hr => ?_⟩
  · rcases step_answers hinv with (⟨t, h⟩ | ⟨a, h, -⟩) | ⟨h, -⟩ <;> cases h.symm.trans he
  · rw [step_no_input hi]
    exact exists_engineTurn hb (hinv.run hb) hp
  · rcases step_answers hinv with (⟨t, h⟩ | ⟨a, h, ha⟩) | ⟨h, hedge⟩
    · cases h.symm.trans hr
    · exact .inl ⟨a, (Host.Outcome.refused.inj (h.symm.trans hr)).symm, ha⟩
    · exact .inr ⟨(Host.Outcome.refused.inj (h.symm.trans hr)).symm, hedge⟩

/-! ## A run to DONE -/

/-- A run of steps goes on from the state its first step answers. -/
theorem runSteps_of_step {s t : State} (h : step s = .next t) (k : Nat) : runSteps (k + 1) s = runSteps k t := by
  rw [runSteps_succ, h, andThen]

/-- With no input left and a ready sink, a run in a byte-producing phase hands over the rest of the file, one byte in each
step, and ends in DONE (R203, R205; logs 3, 5). -/
theorem runSteps_drain (k : Nat) {s : State} (hb : s.state = .busy) (hi : s.inputs = []) (hr : s.outReady = true)
    (hrun : s.RunInv) (hp : s.phase.producesBytes = true) (hk : s.pc.toNat + k = fileSize (gridG s)) :
    ∃ run : List OutByte, run.length = k ∧ (∀ n, n < k → run[n]? = streamByte s (s.pc.toNat + n))
      ∧ runSteps k s =
          .next { s with state := .done, phase := .none, pc := s.pc + BitVec.ofNat 32 k, out := s.out ++ run } := by
  induction k generalizing s with
  | zero =>
    obtain ⟨-, hlt⟩ := hrun.position hp
    omega
  | succ k ih =>
    obtain ⟨b, hst, hturn⟩ := engineTurn_of_ready hb hrun hp hr
    obtain ⟨-, -, hlt⟩ := hst.position
    have hrest := runSteps_of_step ((step_no_input hi).trans hturn) k
    have hfirst : streamByte s (s.pc.toNat + 0) = some { data := b, last := lastMark s s.pc.toNat } := hst.streamByte_eq
    by_cases hlast : s.pc.toNat = fileSize (gridG s) - 1
    · obtain rfl : k = 0 := by omega
      refine ⟨[{ data := b, last := lastMark s s.pc.toNat }], rfl, fun n hn => ?_, ?_⟩
      · obtain rfl : n = 0 := by omega
        exact hfirst.symm
      · rw [hrest, transferByte_eq, if_pos hlast, lastMark, decide_eq_true hlast]
        rfl
    · have hbusy : (transferByte b s).state = .busy := by rw [transferByte_state, if_neg hlast, hb]
      have hbytes : (transferByte b s).phase.producesBytes = true := by
        rw [transferByte_phase s b hlast]
        exact phaseOf_producesBytes _
      have hpc : (transferByte b s).pc.toNat = s.pc.toNat + 1 := by rw [transferByte_pc, toNat_pc_succ hrun.size hlt]
      have hcount : s.pc + 1 + BitVec.ofNat 32 k = s.pc + BitVec.ofNat 32 (k + 1) := by
        rw [BitVec.ofNat_add, BitVec.add_comm (BitVec.ofNat 32 k), BitVec.add_assoc]
        rfl
      obtain ⟨run, hlen, hrunBytes, hend⟩ :=
        ih hbusy (by rw [transferByte_inputs, hi]) (by rw [transferByte_outReady, hr]) (hrun.transferByte hst hlast)
          hbytes (by rw [hpc, gridG_transferByte]; omega)
      refine ⟨{ data := b, last := lastMark s s.pc.toNat } :: run, by simp [hlen], fun n hn => ?_, ?_⟩
      · cases n with
        | zero => exact hfirst.symm
        | succ n =>
          rw [List.getElem?_cons_succ, hrunBytes n (by omega), hpc, Nat.add_assoc, Nat.add_comm 1]
          exact streamByte_eq_of_sameSnapshot (transferByte_sameSnapshot s b) _
      · rw [hrest, hend, transferByte_out, transferByte_eq, if_neg hlast]
        simp only [List.append_assoc, List.singleton_append, hcount]

/-- The state that an accepted START leaves with no input left: VALIDATE has the next turn (R131). -/
def startedRun (s : State) : State :=
  { s with inputs := [], pc := 0, errcode := .none, errinfo := 0, state := .busy, phase := .validate }

/-- The state of that run after VALIDATE has passed: its first byte is next (R180). -/
def validatedRun (s : State) : State := { startedRun s with phase := .fileHeader }

section
variable {s : State} (hb : s.state ≠ .busy) (hi : s.inputs = [.host (.wr 0x000#12 0x00000001#32)])
  (hr : s.outReady = true) (hsize : acceptedSize s.cfg (gridG s) = true) (hcol : firstBadColour s = none)
  (hw : cellsWritten s.grid (gridG s)) (hd : cellsInDomain s.grid (gridG s))

include hb hi hsize hcol in
/-- An accepted START begins the run (R131). -/
theorem step_start_accepted : step s = .next (startedRun s) := by
  rw [step_wr_cmd hi, writeCmd_of_decode (i := .start) rfl]
  exact exec_start_of_no_check (s := { s with inputs := [] }) hb (startCheck_eq_none.mpr ⟨hsize, hcol⟩)

include hw hd in
/-- VALIDATE's turn passes written cells that do not hold 3 (R180). -/
theorem step_startedRun : step (startedRun s) = .next (validatedRun s) := by
  rw [step_no_input rfl, engineTurn_of_decode (i := .validate) rfl rfl]
  exact exec_validate_of_cellsInDomain (s := startedRun s) rfl rfl hw hd

include hsize hcol hw hd in
/-- The run after VALIDATE is as `RunInv` says, at the first offset of the file. -/
theorem validatedRun_runInv : (validatedRun s).RunInv where
  size := hsize
  colours := hcol
  notNone h := nomatch h
  validate h := nomatch h
  position _ := ⟨rfl, Nat.add_pos_left (by decide) _⟩
  cells _ := ⟨hw, hd⟩

include hb hi hr hsize hcol hw hd in
/-- An accepted START with a ready sink and no further input: one turn for VALIDATE and one for each byte of the file end the
run in DONE with the file handed over (R142, R205). -/
theorem runSteps_start_to_done :
    ∃ run : List OutByte, run.length = fileSize (gridG s) ∧ (∀ n, n < run.length → run[n]? = streamByte s n)
      ∧ runSteps (1 + (1 + run.length)) s =
          .next { s with state := .done, phase := .none, errcode := .none, errinfo := 0,
                         pc := BitVec.ofNat 32 run.length, out := s.out ++ run, inputs := [] } := by
  obtain ⟨run, hlen, hbytes, hend⟩ := runSteps_drain (fileSize (gridG s)) (s := validatedRun s) rfl rfl hr
    (validatedRun_runInv hsize hcol hw hd) rfl (Nat.zero_add _)
  refine ⟨run, hlen, fun n hn => ?_, ?_⟩
  · have hpos : (validatedRun s).pc.toNat + n = n := Nat.zero_add n
    have hsame : sameSnapshot s (validatedRun s) := ⟨rfl, rfl, rfl, rfl, rfl, rfl⟩
    rw [hbytes n (hlen ▸ hn), hpos, streamByte_eq_of_sameSnapshot hsame]
  · have hpc : (validatedRun s).pc + BitVec.ofNat 32 (fileSize (gridG s)) = BitVec.ofNat 32 (fileSize (gridG s)) :=
      BitVec.zero_add _
    rw [Nat.add_comm 1, runSteps_of_step (step_start_accepted hb hi hsize hcol), Nat.add_comm 1,
      runSteps_of_step (step_startedRun hw hd), hlen, hend, hpc]
    rfl

end

/-- Settles O33: it is `runSteps_start_to_done`. -/
theorem acceptedStartRunsToDone : Obligations.AcceptedStartRunsToDone := by
  unfold Obligations.AcceptedStartRunsToDone
  exact fun s hb hi hr hsize hcol hw hd => runSteps_start_to_done hb hi hr hsize hcol hw hd

end Sys2Proof.Machine
end

section
/-! PROOF. The family of the clock edge: it is the sequence of atomic steps it stands for (R68), and its reads see the state
before it. What a step does never depends on the inputs still to come (R14), so a list of inputs is run one by one. -/

namespace Sys2Proof.Machine

/-! ## The inputs still to come -/

/-- The state with other inputs still to come. -/
def withInputs (l : List Input) (s : State) : State := { s with inputs := l }

/-- The result with `f` applied to its next state, if it has one. -/
def mapNext (f : State → State) : Result → Result
  | .next s => .next (f s)
  | .fault e => .fault e
  | .refused r => .refused r

theorem andThen_mapNext (f : State → State) (r : Result) (g : State → Result) :
    andThen (mapNext f r) g = andThen r fun s => g (f s) := by cases r <;> rfl

theorem mapNext_andThen (f : State → State) (r : Result) (g : State → Result) :
    mapNext f (andThen r g) = andThen r fun s => mapNext f (g s) := by cases r <;> rfl

theorem andThen_assoc (r : Result) (f g : State → Result) :
    andThen (andThen r f) g = andThen r fun s => andThen (f s) g := by cases r <;> rfl

@[simp] theorem andThen_next_left (s : State) (f : State → Result) : andThen (.next s) f = f s := rfl

theorem andThen_next_right (r : Result) : andThen r .next = r := by cases r <;> rfl

/-- An outcome related by `f` to another is that one with `f` applied to its next state. -/
theorem eq_mapNext_of_related {f : State → State} {r q : Result} (h : related (fun s t => s = f t) r q) :
    r = mapNext f q := by
  cases r <;> cases q <;> simp_all [related, mapNext]

section
variable (l : List Input) (s : State)

/-- The inputs still to come are not read: each update commutes with changing them. -/
theorem unread_withInputs : Unread (withInputs l) fun s t => s = withInputs l t where
  same _ := rfl
  ready _ := rfl
  unchanged _ := rfl
  notExecuted _ := rfl
  startFailed _ _ _ := rfl
  started _ := rfl
  cleared _ := rfl
  cellError _ _ _ := rfl
  validated _ := rfl
  transfer b s := by
    have hpos : (withInputs l s).pc.toNat = fileSize (gridG (withInputs l s)) - 1
        ↔ s.pc.toNat = fileSize (gridG s) - 1 := Iff.rfl
    rw [transferByte_eq, transferByte_eq]
    simp only [hpos]
    split <;> rfl

/-- No meaning reads the inputs still to come. -/
theorem exec_withInputs (i : Instr) : exec i (withInputs l s) = mapNext (withInputs l) (exec i s) :=
  eq_mapNext_of_related ((unread_withInputs l).exec s i)

theorem engineTurn_withInputs : engineTurn (withInputs l s) = mapNext (withInputs l) (engineTurn s) := by
  have hstate : (withInputs l s).state = s.state := rfl
  have hphase : (withInputs l s).phase = s.phase := rfl
  rw [engineTurn, engineTurn, hstate, hphase]
  split
  · split
    · exact exec_withInputs l s _
    · rfl
  · rfl

theorem hostWr_withInputs (o : RegOffset) (d : Word) :
    hostWr o d (withInputs l s) = mapNext (withInputs l) (hostWr o d s) := by
  by_cases ho : o = 0x000#12
  · subst ho
    show writeCmd d (withInputs l s) = mapNext _ (writeCmd d s)
    rw [writeCmd, writeCmd]
    split
    · exact exec_withInputs l s _
    · rfl
  by_cases hcfg : isConfigOffset o
  · by_cases hb : s.state = .busy
    · rw [hostWr_config_of_busy hcfg hb, hostWr_config_of_busy (s := withInputs l s) hcfg hb]
      rfl
    · rcases hcfg with rfl | rfl | rfl | rfl <;> simp [hostWr, writeConfig, hb, withInputs, mapNext]
  · rw [hostWr_ignored ho hcfg, hostWr_ignored ho hcfg]
    rfl

theorem hostGw_withInputs (a : GridAddr) (v : Cell) :
    hostGw a v (withInputs l s) = mapNext (withInputs l) (hostGw a v s) := by
  have hstate : (withInputs l s).state = s.state := rfl
  have hcfg : (withInputs l s).cfg = s.cfg := rfl
  rw [hostGw, hostGw, hstate, hcfg]
  split
  · rfl
  · split <;> rfl

theorem hostGr_withInputs (b : State) (a : GridAddr) :
    hostGr (withInputs l b) a (withInputs l s) = mapNext (withInputs l) (hostGr b a s) := by
  have hcfg : (withInputs l b).cfg = b.cfg := rfl
  have hgrid : (withInputs l b).grid = b.grid := rfl
  rw [hostGr, hostGr, hcfg, hgrid]
  split
  · split <;> rfl
  · rfl

theorem hostStep_withInputs (op : HostOp) :
    hostStep op (withInputs l s) = mapNext (withInputs l) (hostStep op s) := by
  cases op with
  | wr o d => exact hostWr_withInputs l s o d
  | rd o => rfl
  | gw a v => exact hostGw_withInputs l s a v
  | gr a => exact hostGr_withInputs l s s a

/-- A clock edge does not depend on the inputs after it. -/
theorem clockEdge_withInputs (p : Pins) : clockEdge p (withInputs l s) = mapNext (withInputs l) (clockEdge p s) := by
  have hgrid (b u : State) : edgeGrid p (withInputs l b) (withInputs l u) = mapNext (withInputs l) (edgeGrid p b u) := by
    rw [edgeGrid, edgeGrid]
    split
    · exact hostGw_withInputs l u ..
    · split
      · exact hostGr_withInputs l u b _
      · rfl
  have hreg (b u : State) : edgeReg p (withInputs l b) (withInputs l u) = mapNext (withInputs l) (edgeReg p b u) := by
    rw [edgeReg, edgeReg]
    split
    · exact hostWr_withInputs l u ..
    · split <;> rfl
  have heng (b u : State) : edgeEngine (withInputs l b) (withInputs l u) = mapNext (withInputs l) (edgeEngine b u) := by
    have hstate : (withInputs l b).state = b.state := rfl
    rw [edgeEngine, edgeEngine, hstate]
    split
    · exact engineTurn_withInputs l u
    · rfl
  cases hrst : p.rst with
  | true => simp only [clockEdge, hrst, if_true]; rfl
  | false =>
    cases hwf : p.wf with
    | false => simp [clockEdge, hrst, hwf, mapNext]
    | true =>
      have hready : ({ withInputs l s with outReady := p.outReady } : State)
          = withInputs l { s with outReady := p.outReady } := rfl
      rw [clockEdge_of_wf hrst hwf, clockEdge_of_wf hrst hwf, hready]
      simp only [hgrid, hreg, heng, andThen_mapNext, mapNext_andThen]

/-- No step of an input depends on the inputs after it (R14). -/
theorem inputStep_withInputs (i : Input) : inputStep i (withInputs l s) = mapNext (withInputs l) (inputStep i s) := by
  cases i with
  | host op => exact hostStep_withInputs l s op
  | engine => exact engineTurn_withInputs l s
  | sink | reset => rfl
  | edge p => exact clockEdge_withInputs l s p

end

/-! ## A list of inputs, one by one -/

/-- The inputs of a list taken one after another, whatever inputs the state itself holds (`runSteps_feed`). -/
def feed : List Input → State → Result
  | [], s => .next s
  | i :: l, s => andThen (inputStep i s) (feed l)

theorem feed_cons (i : Input) (l : List Input) (s : State) : feed (i :: l) s = andThen (inputStep i s) (feed l) := rfl

theorem feed_append (l₁ l₂ : List Input) (s : State) : feed (l₁ ++ l₂) s = andThen (feed l₁ s) (feed l₂) := by
  induction l₁ generalizing s with
  | nil => rfl
  | cons i l₁ ih =>
    rw [List.cons_append, feed_cons, feed_cons, andThen_assoc]
    exact congrArg _ (funext ih)

/-- As many steps as a list has inputs take them one by one and leave the inputs after them (R14). -/
theorem runSteps_feed (l rest : List Input) (s : State) :
    runSteps l.length (withInputs (l ++ rest) s) = mapNext (withInputs rest) (feed l s) := by
  induction l generalizing s with
  | nil => rfl
  | cons i l ih =>
    have hstep : step (withInputs (i :: (l ++ rest)) s) = mapNext (withInputs (l ++ rest)) (inputStep i s) :=
      inputStep_withInputs (l ++ rest) s i
    rw [List.length_cons, List.cons_append, runSteps_succ, hstep, andThen_mapNext, feed_cons, mapNext_andThen]
    exact congrArg _ (funext ih)

/-! ## The clock edge as a sequence -/

/-- A REG read before a GW is a REG read after it: neither sees what the other changes (R68). -/
theorem hostGw_with_regRdata (a : GridAddr) (v : Cell) (x : Word) (s : State) :
    hostGw a v { s with regRdata := x } = mapNext (fun t => { t with regRdata := x }) (hostGw a v s) := by
  rw [hostGw, hostGw]
  split
  · rfl
  · split <;> rfl

/-- A host transaction as an input, if its strobe is high (R51). -/
def strobed (strobe : Bool) (op : HostOp) : List Input := if strobe then [.host op] else []

theorem feed_strobed_true (op : HostOp) (s : State) : feed (strobed true op) s = hostStep op s := andThen_next_right _

/-- The host accesses among the atomic steps of a clock edge (R68). -/
def edgeAccesses (p : Pins) : List Input :=
  strobed p.gridRe (.gr p.gridAddr) ++ strobed p.regRe (.rd p.regAddr) ++ strobed p.gridWe (.gw p.gridAddr p.gridWdata)
    ++ strobed p.regWe (.wr p.regAddr p.regWdata)

theorem edgeAsInputs_eq (p : Pins) (s : State) :
    edgeAsInputs p s =
      .sink p.outReady :: (edgeAccesses p ++ if s.state = .busy then [.engine] else []) := by
  simp [edgeAsInputs, edgeAccesses, strobed]

/-- One access on a port excludes the other (R51). -/
theorem Pins.wf_iff {p : Pins} :
    p.wf = true ↔ (p.regWe = true → p.regRe = false) ∧ (p.gridWe = true → p.gridRe = false) := by
  simp [Pins.wf, imp_iff_not_or]

/-- The read that a REG read answers is not changed by what GR changes (R136). -/
theorem hostGr_then_rd (b : State) (a : GridAddr) (o : RegOffset) :
    andThen (hostGr b a b) (fun u => hostRd u o u) = andThen (hostGr b a b) (hostRd b o) := by
  cases hgr : hostGr b a b with
  | next u =>
    obtain ⟨v, rfl⟩ := hostGr_next hgr
    rfl
  | fault | refused => rfl

/-- The accesses without a REG read: the GRID access, then the REG write if there is one. -/
theorem feed_edgeAccesses_of_no_read {p : Pins} (hre : p.regRe = false) (hgrid : p.gridWe = true → p.gridRe = false)
    (b : State) : feed (edgeAccesses p) b = andThen (edgeGrid p b b) (edgeReg p b) := by
  have hwrite : feed (strobed p.regWe (.wr p.regAddr p.regWdata)) = edgeReg p b := by
    funext u
    rw [edgeReg, hre]
    cases p.regWe with
    | true => exact feed_strobed_true ..
    | false => rfl
  have haccess : feed (strobed p.gridRe (.gr p.gridAddr) ++ strobed p.gridWe (.gw p.gridAddr p.gridWdata)) b
      = edgeGrid p b b := by
    rw [edgeGrid]
    cases hwe : p.gridWe with
    | true =>
      rw [hgrid hwe]
      exact feed_strobed_true ..
    | false =>
      cases p.gridRe with
      | true => exact feed_strobed_true ..
      | false => rfl
  have hlist : edgeAccesses p = strobed p.gridRe (.gr p.gridAddr) ++ strobed p.gridWe (.gw p.gridAddr p.gridWdata)
      ++ strobed p.regWe (.wr p.regAddr p.regWdata) := by
    simp [edgeAccesses, strobed, hre]
  rw [hlist, feed_append, haccess, hwrite]

/-- The accesses with a REG read: it sees the state before, and what it answers is not read by the GRID access (R68). -/
theorem feed_edgeAccesses_of_read {p : Pins} (hre : p.regRe = true) (hwe : p.regWe = false)
    (hgrid : p.gridWe = true → p.gridRe = false) (b : State) :
    feed (edgeAccesses p) b = andThen (edgeGrid p b b) (edgeReg p b) := by
  have hreg : edgeReg p b = hostRd b p.regAddr := by
    funext u
    rw [edgeReg, hwe, hre]
    rfl
  rw [edgeAccesses, edgeGrid, hreg, hre, hwe]
  cases hgwe : p.gridWe with
  | true =>
    have hgw := hostGw_with_regRdata p.gridAddr p.gridWdata (regValue b p.regAddr) b
    rw [hgrid hgwe]
    show andThen (hostGw p.gridAddr p.gridWdata { b with regRdata := regValue b p.regAddr }) .next = _
    rw [hgw, andThen_mapNext]
    rfl
  | false =>
    cases p.gridRe with
    | true =>
      show andThen (hostGr b p.gridAddr b) (fun u => andThen (hostRd u p.regAddr u) .next) = _
      simp only [andThen_next_right]
      exact hostGr_then_rd b p.gridAddr p.regAddr
    | false => rfl

/-- The accesses one after another are the GRID access and then the REG access of the cycle: the reads see the state before,
and the write of one port does not see the read of the other (R68). -/
theorem feed_edgeAccesses {p : Pins} (hwf : p.wf = true) (b : State) :
    feed (edgeAccesses p) b = andThen (edgeGrid p b b) (edgeReg p b) := by
  obtain ⟨hreg, hgrid⟩ := Pins.wf_iff.mp hwf
  cases hre : p.regRe with
  | false => exact feed_edgeAccesses_of_no_read hre hgrid b
  | true => exact feed_edgeAccesses_of_read hre (by simpa [hre] using hreg) hgrid b

/-- The engine's step of a cycle is the engine's turn as an input, given if the state before is BUSY (R68, log 14). -/
theorem feed_edgeEngine (s b u : State) (hb : b.state = s.state) :
    feed (if s.state = .busy then [.engine] else []) u = edgeEngine b u := by
  rw [edgeEngine, hb]
  split
  · exact andThen_next_right _
  · rfl

/-- A clock edge without reset is the sequence of atomic steps it stands for (R68). -/
theorem clockEdge_eq_feed {p : Pins} (hrst : p.rst = false) (hwf : p.wf = true) (s : State) :
    clockEdge p s = feed (edgeAsInputs p s) s := by
  have heng := funext fun u => feed_edgeEngine s { s with outReady := p.outReady } u rfl
  have hsink : inputStep (.sink p.outReady) s = .next { s with outReady := p.outReady } := rfl
  rw [clockEdge_of_wf hrst hwf, edgeAsInputs_eq, feed_cons, hsink, andThen_next_left, feed_append,
    feed_edgeAccesses hwf, heng, andThen_assoc]

/-- Settles O43: the edge's step and the run of its sequence are the same list of inputs fed to the state
(`clockEdge_eq_feed`, `runSteps_feed`); two accesses on one port are refused by the edge itself (log 13). -/
theorem clockEdgeIsItsStepSequence : Obligations.ClockEdgeIsItsStepSequence := by
  unfold Obligations.ClockEdgeIsItsStepSequence
  intro s p rest hrst
  refine ⟨fun hwf => ?_, fun hwf => by simp [step, inputStep, clockEdge, hrst, hwf]⟩
  calc step { s with inputs := .edge p :: rest }
    _ = mapNext (withInputs rest) (clockEdge p s) := clockEdge_withInputs rest s p
    _ = mapNext (withInputs rest) (feed (edgeAsInputs p s) s) := by rw [clockEdge_eq_feed hrst hwf]
    _ = runSteps (edgeAsInputs p s).length { s with inputs := edgeAsInputs p s ++ rest } := (runSteps_feed ..).symm

/-! ## The reads of a clock edge -/

section
variable {s t : State}

/-- A REG write leaves both read data ports. -/
theorem WrEffect.gridRdata_eq {wr : Option (RegOffset × Word)} (h : WrEffect wr s t) : t.gridRdata = s.gridRdata := by
  cases h with
  | stored _ _ ht => rcases ht with ⟨-, rfl⟩ | ⟨-, rfl⟩ | ⟨-, rfl⟩ | ⟨-, rfl⟩ <;> rfl
  | nothing | notExecuted | dropped | startFailed | started | cleared => rfl

/-- The engine leaves both read data ports. -/
theorem EngineEffect.rdata_eq (h : EngineEffect s t) : t.regRdata = s.regRdata ∧ t.gridRdata = s.gridRdata := by
  cases h with
  | noStep | cellError | validated => exact ⟨rfl, rfl⟩
  | transfer => exact ⟨transferByte_regRdata .., transferByte_gridRdata ..⟩

/-- The engine's step of a cycle leaves both read data ports. -/
theorem edgeEngine_rdata_eq {b : State} (h : edgeEngine b s = .next t) :
    t.regRdata = s.regRdata ∧ t.gridRdata = s.gridRdata := by
  unfold edgeEngine at h
  split at h
  · exact (engineTurn_effect h).rdata_eq
  · obtain rfl := Host.Outcome.next.inj h
    exact ⟨rfl, rfl⟩

/-- The REG access of a cycle leaves the GRID read data port. -/
theorem edgeReg_gridRdata_eq {p : Pins} {b : State} (h : edgeReg p b s = .next t) : t.gridRdata = s.gridRdata := by
  rcases edgeReg_next h with ⟨-, hwr⟩ | ⟨v, rfl⟩
  · exact (hostWr_effect hwr).gridRdata_eq
  · rfl

end

/-- Settles O44: the reads of an edge are made on the state before it, and nothing after them in the cycle changes a read
data port. -/
theorem clockEdgeReadsSeeTheStateBefore : Obligations.ClockEdgeReadsSeeTheStateBefore := by
  unfold Obligations.ClockEdgeReadsSeeTheStateBefore
  intro s t p rest hi hrst h
  have hstep : step s = clockEdge p { s with inputs := rest } := by simp only [step, hi, inputStep]
  rcases clockEdge_next (hstep ▸ h) with ⟨hr, -⟩ | ⟨-, hwf, s1, s2, hgrid, hreg, heng⟩
  · simp [hrst] at hr
  rw [← afterInput_edge hi] at hgrid hreg heng
  obtain ⟨hport, hgport⟩ := Pins.wf_iff.mp hwf
  obtain ⟨hregEnd, hgridEnd⟩ := edgeEngine_rdata_eq heng
  refine ⟨fun hre => ⟨_, step_rd rfl, ?_⟩, fun hre => ?_⟩
  · have hwe : p.regWe = false := by simpa [hre] using hport
    rw [edgeReg, hwe, hre] at hreg
    rw [hregEnd, hostRd_next hreg]
    rfl
  · have hwe : p.gridWe = false := by simpa [hre] using hgport
    rw [edgeGrid, hwe, hre] at hgrid
    have hkept := hgridEnd.trans (edgeReg_gridRdata_eq hreg)
    obtain ⟨v, hv, rfl⟩ := hostGr_next_iff.mp hgrid
    exact ⟨_, (step_gr_next_iff rfl).mpr ⟨v, hv, rfl⟩, hkept⟩

end Sys2Proof.Machine
end

section
/-! PROOF. The family of the whole file: its length (R206) and its pixels as the framed image (R188). -/

namespace Sys2Proof.Machine

/-! ## The length of the file -/

/-- Where every element of a list has an answer, the answers are the list of them. -/
theorem map_some_of_mapM {α β : Type} {f : α → Option β} {l : List α} {r : List β} (h : l.mapM f = some r) :
    r.map some = l.map f := by
  induction l generalizing r with
  | nil =>
    obtain rfl : [] = r := by simpa using h
    rfl
  | cons a l ih =>
    rw [List.mapM_cons] at h
    obtain ⟨b, hb, h⟩ := Option.bind_eq_some_iff.mp h
    obtain ⟨bs, hbs, h⟩ := Option.bind_eq_some_iff.mp h
    obtain rfl := Option.some.inj h
    rw [List.map_cons, List.map_cons, hb, ih hbs]

section
variable {s : State} {bytes : List Byte} (h : encodeFile s = some bytes)
include h

/-- A defined file has as many bytes as its size says (R202). -/
theorem encodeFile_length : bytes.length = fileSize (gridG s) := by
  simpa using congrArg List.length (map_some_of_mapM h)

/-- The bytes of a defined file are `EncByte` at every offset (R202). -/
theorem encodeFile_getElem? {n : Nat} (hn : n < fileSize (gridG s)) : bytes[n]? = encByte s n := by
  have hlen := encodeFile_length h
  have hat := congrArg (fun l : List (Option Byte) => l[n]?) (map_some_of_mapM h)
  simpa [List.getElem?_range hn, List.getElem?_eq_getElem (hlen.symm ▸ hn)] using hat

end

/-- A number below 2^32 is its four bytes, weighted (R88). -/
theorem eq_sum_of_bytes {v : Nat} (h : v < 2 ^ 32) :
    v = (byteOf v 0).toNat + 256 * (byteOf v 1).toNat + 65536 * (byteOf v 2).toNat
      + 16777216 * (byteOf v 3).toNat := by
  simp only [byteOf, BitVec.toNat_ofNat, Nat.shiftRight_eq_div_pow, Nat.reduceMul, Nat.reducePow]
  omega

/-- At the offsets of the file header the file's byte is that layout's (R151, R202). -/
theorem encByte_of_fileHeader_offset (s : State) {n : Nat} (h : n < 14) :
    encByte s n = (fileHeaderBytes s.cfg (gridG s))[n]? := by
  rw [encByte_of_header_offset s (by omega), fileHeaderBytes_getElem? _ _ h]

/-- The size of the file in the terms of R206: two pixels of the 32·G square to a byte. -/
theorem fileSize_eq_square (G : Nat) : fileSize G = 14 + 12 + 48 + (G * 32) ^ 2 / 2 := by
  have hsquare : (G * 32) ^ 2 = 2 * pixelDataSize G := by unfold pixelDataSize; ring
  rw [hsquare, Nat.mul_div_cancel_left _ (by decide), fileSize]

/-- Settles O47: the length is `encodeFile_length`, and offsets 2 to 5 hold its four bytes by the layout of R151. -/
theorem fileLengthIsExact : Obligations.FileLengthIsExact := by
  unfold Obligations.FileLengthIsExact
  intro s bytes hsize h
  have hlen := encodeFile_length h
  have hbyte (i : Nat) (hi : i < 4) : bytes[2 + i]? = some (byteOf (fileSize (gridG s)) i) := by
    rw [encodeFile_getElem? h ((by omega : 2 + i < 74).trans_le (Nat.le_add_right ..)),
      encByte_of_fileHeader_offset s (by omega), fileHeaderBytes_eq]
    interval_cases i <;> rfl
  refine ⟨hlen.trans (fileSize_eq_square _), _, _, _, _, hbyte 0 (by decide), hbyte 1 (by decide), hbyte 2 (by decide),
    hbyte 3 (by decide), ?_⟩
  rw [hlen]
  exact eq_sum_of_bytes (fileSize_lt_of_acceptedSize hsize)

/-! ## The pixels -/

/-- The left pixel of a packed byte is its high nibble (R89, R200). -/
theorem packNibbles_high : ∀ left right : Nibble, (packNibbles left right).toNat / 16 = left.toNat := by decide

/-- The right pixel of a packed byte is its low nibble (R89, R200). -/
theorem packNibbles_low : ∀ left right : Nibble, (packNibbles left right).toNat % 16 = right.toNat := by decide

/-- The palette index of the pixel in column `X` that a byte holds: high nibble for even columns (R188, R200). -/
def pixelNibble (b : Byte) (X : Nat) : Nat := if X % 2 = 0 then b.toNat / 16 else b.toNat % 16

/-- Pixel `(X, Y)` lies on the 1-pixel ring of its cell (R185, R188). -/
def onRing (X Y : Nat) : Prop := X % 32 = 0 ∨ X % 32 = 31 ∨ Y % 32 = 0 ∨ Y % 32 = 31

/-- The byte of pixel `(X, Y)`, counted from the first pixel byte: the rows are stored bottom up (R188). -/
def pixelIndex (G X Y : Nat) : Nat := (imageSide G - 1 - Y) * rowBytes G + X / 2

section
variable {G X Y : Nat} (hX : X < imageSide G) (hY : Y < imageSide G)
include hX hY

/-- The byte of a pixel is one of the pixel data's. -/
theorem pixelIndex_lt : pixelIndex G X Y < pixelDataSize G := by
  unfold imageSide at hX hY
  have hcol : X / 2 < rowBytes G := by unfold rowBytes; omega
  calc pixelIndex G X Y < (imageSide G - 1 - Y) * rowBytes G + rowBytes G := Nat.add_lt_add_left hcol _
    _ = (imageSide G - 1 - Y + 1) * rowBytes G := (Nat.succ_mul ..).symm
    _ ≤ imageSide G * rowBytes G := Nat.mul_le_mul_right _ (by unfold imageSide; omega)
    _ = pixelDataSize G := by unfold imageSide rowBytes pixelDataSize; ring

/-- The scan indices of a pixel's byte: the band and the row in it are mirrored, the column is not (R182, R188). -/
theorem scanIndex_pixelIndex :
    scanIndex G (pixelIndex G X Y) =
      { vi := G - 1 - Y / 32, vj := 31 - Y % 32, hi := X / 32, hj := X % 32 / 2 } := by
  unfold imageSide at hX hY
  have hrow : (G - 1 - Y / 32) * 32 + (31 - Y % 32) = imageSide G - 1 - Y := by unfold imageSide; omega
  have hcol : X / 32 * 16 + X % 32 / 2 = X / 2 := by omega
  have hindex : pixelIndex G X Y = (((G - 1 - Y / 32) * 32 + (31 - Y % 32)) * G + X / 32) * 16 + X % 32 / 2 := by
    rw [hrow, pixelIndex, ← hcol, rowBytes]
    ring
  rw [hindex]
  exact scanIndex_of_counters _ (by omega) (by omega) (by omega)

/-- The cell a pixel samples is the one it lies in, in row-major order from the top (R183, R188). -/
theorem cellAddr_pixelIndex : cellAddr G (scanIndex G (pixelIndex G X Y)) = Y / 32 * G + X / 32 := by
  rw [scanIndex_pixelIndex hX hY]
  unfold imageSide at hY
  have hband : G - 1 - (G - 1 - Y / 32) = Y / 32 := by omega
  rw [cellAddr, hband]

end

/-- At the row and the half-column of a pixel, the pixel's nibble is 0 on the ring of its cell and the cell's value inside
(R185, R186, R188). -/
theorem pixelNibble_pixelByteAt {i : ScanIndex} {X Y : Nat} (hvj : i.vj = 31 - Y % 32) (hhj : i.hj = X % 32 / 2) (v : Cell) :
    (onRing X Y → pixelNibble (pixelByteAt i v) X = 0) ∧ (¬onRing X Y → pixelNibble (pixelByteAt i v) X = v.toNat) := by
  have hv : (v.setWidth 4).toNat = v.toNat := BitVec.toNat_setWidth_of_le (by decide)
  rw [pixelByteAt, leftIndex_eq (by omega) (by omega), rightIndex_eq (by omega) (by omega), hvj, hhj]
  unfold pixelNibble onRing
  split
  · next heven =>
    have hframe : ((31 - Y % 32 = 0 ∨ 31 - Y % 32 = 31) ∨ X % 32 / 2 = 0)
        ↔ (X % 32 = 0 ∨ X % 32 = 31 ∨ Y % 32 = 0 ∨ Y % 32 = 31) := by omega
    rw [packNibbles_high]
    exact ⟨fun hring => by rw [if_pos (hframe.mpr hring)]; rfl,
      fun hring => by rw [if_neg (hring ∘ hframe.mp), hv]⟩
  · next hodd =>
    have hframe : ((31 - Y % 32 = 0 ∨ 31 - Y % 32 = 31) ∨ X % 32 / 2 = 15)
        ↔ (X % 32 = 0 ∨ X % 32 = 31 ∨ Y % 32 = 0 ∨ Y % 32 = 31) := by omega
    rw [packNibbles_low]
    exact ⟨fun hring => by rw [if_pos (hframe.mpr hring)]; rfl,
      fun hring => by rw [if_neg (hring ∘ hframe.mp), hv]⟩

/-- The byte of a pixel whose cell is written, and the pixel's nibble in it (R188). -/
theorem exists_encByte_of_pixel {s : State} {X Y : Nat} {v : Cell} (hX : X < imageSide (gridG s))
    (hY : Y < imageSide (gridG s)) (hv : s.grid.read (Y / 32 * gridG s + X / 32) = some v) :
    ∃ b, encByte s (74 + pixelIndex (gridG s) X Y) = some b
      ∧ (onRing X Y → pixelNibble b X = 0) ∧ (¬onRing X Y → pixelNibble b X = v.toNat) := by
  have hlt := pixelIndex_lt hX hY
  have hindex := scanIndex_pixelIndex hX hY
  refine ⟨_, ?_, pixelNibble_pixelByteAt (congrArg ScanIndex.vj hindex) (congrArg ScanIndex.hj hindex) v⟩
  rw [encByte_of_pixel_offset (Nat.le_add_right ..) (Nat.add_lt_add_left hlt 74), pixByte, Nat.add_sub_cancel_left,
    cellAddr_pixelIndex hX hY, hv, Option.map_some]

/-- The cell of a pixel is one of the run's (R188). -/
theorem cell_of_pixel_lt {G X Y : Nat} (hX : X < imageSide G) (hY : Y < imageSide G) : Y / 32 * G + X / 32 < G * G := by
  unfold imageSide at hX hY
  calc Y / 32 * G + X / 32 < Y / 32 * G + G := by omega
    _ = (Y / 32 + 1) * G := (Nat.succ_mul ..).symm
    _ ≤ G * G := Nat.mul_le_mul_right G (by omega)

/-- Settles O49: the pixel's cell is written, and its byte and nibble are `exists_encByte_of_pixel`. -/
theorem pixelDataIsTheFramedImage : Obligations.PixelDataIsTheFramedImage := by
  unfold Obligations.PixelDataIsTheFramedImage
  intro s X Y hw hX hY
  obtain ⟨v, hv⟩ := Option.ne_none_iff_exists'.mp (hw _ (cell_of_pixel_lt hX hY))
  obtain ⟨b, hb, hring, hinside⟩ := exists_encByte_of_pixel hX hY hv
  refine ⟨b, by rw [Nat.add_assoc]; exact hb, hring, fun hin w hw => ?_⟩
  obtain rfl : v = w := Option.some.inj (hv.symm.trans hw)
  exact hinside hin

end Sys2Proof.Machine
end

section
/-! PROOF. The family of the host's program: its lifecycle (R117), what loading leaves in the block (R118), and the image the
sink gets (R142, R188). -/

namespace Sys2Proof.Machine

/-! ## The lifecycle -/

/-- What construct has checked of what it accepts (R112): the model holds the values given. -/
theorem construct_ok {r : RawModel} {m : GridModel} (h : construct r = .ok m) :
    0 < r.gridSize ∧ squareShape r.gridSize.toNat r.parameter = true ∧ squareShape r.gridSize.toNat r.pattern = true
      ∧ cellsUpTo 1 r.parameter = true ∧ cellsUpTo 2 r.pattern = true
      ∧ ∃ c0 c1 c2, (colourInRange c0 = true ∧ colourInRange c1 = true ∧ colourInRange c2 = true)
        ∧ m = modelOfValues c0 c1 c2 r := by
  unfold construct at h
  split at h
  · cases h
  split at h
  · cases h
  split at h
  · cases h
  split at h
  · cases h
  split at h
  · cases h
  next hpos hprm hpat hdom hpdom =>
  split at h
  · next c0 c1 c2 hcolours =>
    split at h
    · next hcol =>
      refine ⟨by omega, by simpa using hprm, by simpa using hpat, by simpa using hdom, by simpa using hpdom, c0, c1, c2,
        by simpa [and_assoc] using hcol, (Except.ok.inj h).symm⟩
    · cases h
  · cases h

/-- construct returns valid models only (R110, R112). -/
theorem valid_of_construct {r : RawModel} {m : GridModel} (h : construct r = .ok m) : m.valid = true := by
  obtain ⟨hpos, hprm, hpat, hdom, hpdom, c0, c1, c2, hcol, rfl⟩ := construct_ok h
  exact modelOfValues_valid hpos hprm hpat hdom hpdom hcol

/-- The model that mask answers for a valid model (`mask_of_valid`). -/
def maskedModel (m : GridModel) : GridModel := { m with pattern := maskedPattern m }

/-- For what construct accepts, the program is decided by the capacity alone: mask has an answer (R117, log 26). -/
theorem encodeProgram_of_construct {c : Config} {r : RawModel} {m : GridModel} (h : construct r = .ok m) :
    encodeProgram c r =
      if m.gridSize ≤ c.maxGrid then .ok (loadAndStart (maskedModel m)) else .error .exceedsCapacity := by
  obtain ⟨hmask, -⟩ := mask_of_valid (valid_of_construct h)
  rw [encodeProgram, h]
  simp only [hmask]
  rfl

/-- A program is the loading and START of the masked model that construct returned, within the capacity (R117). -/
theorem encodeProgram_ok {c : Config} {r : RawModel} {program : List Input} (h : encodeProgram c r = .ok program) :
    ∃ m, construct r = .ok m ∧ m.gridSize ≤ c.maxGrid ∧ program = loadAndStart (maskedModel m) := by
  cases hm : construct r with
  | error e => rw [encodeProgram, hm] at h; cases h
  | ok m =>
    rw [encodeProgram_of_construct hm] at h
    split at h
    · next hfits => exact ⟨m, rfl, hfits, (Except.ok.inj h).symm⟩
    · cases h

/-- A masked cell is 0 where the parameter is 0 (R114). -/
theorem entry_maskedModel_of_zero {m : GridModel} (hm : m.valid = true) {i j : Nat} (hi : i < m.gridSize)
    (hj : j < m.gridSize) (hq : entry m.parameter i j = some 0) : entry (maskedModel m).pattern i j = some 0 := by
  obtain ⟨-, -, hpat, -⟩ := GridModel.valid_iff.mp hm
  obtain ⟨v, hv⟩ := exists_entry_of_matrixValid hpat hi hj
  exact entry_maskedPattern hv hq

/-- Settles O56: a program by `encodeProgram_ok`, and the three ways without one by the equations of `encodeProgram`. -/
theorem hostProgramFollowsTheLifecycle : Obligations.HostProgramFollowsTheLifecycle := by
  unfold Obligations.HostProgramFollowsTheLifecycle
  intro c r
  refine ⟨fun program h => ?_, fun e h => by rw [encodeProgram, h], fun m h hfits => ?_, fun m h hbig => ?_⟩
  · obtain ⟨m, hm, hfits, rfl⟩ := encodeProgram_ok h
    have hvalid := valid_of_construct hm
    obtain ⟨hmask, hmasked⟩ := mask_of_valid hvalid
    exact ⟨m, maskedModel m, hm, hmask, hmasked, hfits, rfl, fun i j hi hj => entry_maskedModel_of_zero hvalid hi hj⟩
  · exact ⟨_, by rw [encodeProgram_of_construct h, if_pos hfits]⟩
  · rw [encodeProgram_of_construct h, if_neg hbig.not_ge]

/-! ## Loading -/

/-- The cells of a list written at rising addresses from `k` on. -/
def writeCells (g : Grid) (k : Nat) : List Nat → Grid
  | [] => g
  | v :: vs => writeCells (g.write k (BitVec.ofNat 2 v)) (k + 1) vs

/-- Below its first address a list of cells writes nothing. -/
theorem read_writeCells_below {g : Grid} {k a : Nat} (h : a < k) (vs : List Nat) : (writeCells g k vs).read a = g.read a := by
  induction vs generalizing g k with
  | nil => rfl
  | cons v vs ih => rw [writeCells, ih (by omega), Grid.read_write_other _ _ _ _ h.ne]

/-- Beyond its last address a list of cells writes nothing. -/
theorem read_writeCells_beyond {g : Grid} {k a : Nat} {vs : List Nat} (h : k + vs.length ≤ a) :
    (writeCells g k vs).read a = g.read a := by
  induction vs generalizing g k with
  | nil => rfl
  | cons v vs ih =>
    rw [List.length_cons] at h
    rw [writeCells, ih (by omega), Grid.read_write_other _ _ _ _ (by omega)]

/-- A list of cells leaves its cell `i` at address `k + i`. -/
theorem read_writeCells {g : Grid} {k i v : Nat} {vs : List Nat} (h : vs[i]? = some v) :
    (writeCells g k vs).read (k + i) = some (BitVec.ofNat 2 v) := by
  induction vs generalizing g k i with
  | nil => simp at h
  | cons w vs ih =>
    cases i with
    | zero =>
      obtain rfl : w = v := by simpa using h
      exact (read_writeCells_below (Nat.lt_succ_self k) vs).trans (Grid.read_write_same ..)
    | succ i =>
      rw [writeCells, ← Nat.add_assoc, Nat.add_right_comm]
      exact ih (by simpa using h)

/-- The GW transactions for a list of cells at rising addresses from `k` on. -/
def cellOps (k : Nat) (vs : List Nat) : List HostOp :=
  ((List.range' k vs.length).zip vs).map fun c => .gw (BitVec.ofNat 22 c.1) (BitVec.ofNat 2 c.2)

/-- The GW part of the loading sequence is that of its cells from address 0 on (R95, R118). -/
theorem loadGridOps_eq (G : Word) (m : List (List Nat)) :
    loadGridOps G m = .wr 0x008#12 G :: cellOps 0 m.flatten := by
  rw [loadGridOps, addressedCells, cellOps, List.range_eq_range']

/-- Outside a run the GW transactions of cells within the capacity write them all and change nothing else (R139). -/
theorem feed_cellOps {s : State} {k : Nat} {vs : List Nat} (hb : s.state ≠ .busy) (hcap : k + vs.length ≤ cellCount s.cfg)
    (hport : cellCount s.cfg ≤ 2 ^ 22) :
    feed ((cellOps k vs).map Input.host) s = .next { s with grid := writeCells s.grid k vs } := by
  induction vs generalizing s k with
  | nil => rfl
  | cons v vs ih =>
    rw [List.length_cons] at hcap
    have haddr : (BitVec.ofNat 22 k).toNat = k := Nat.mod_eq_of_lt (by omega)
    have hfirst : hostStep (.gw (BitVec.ofNat 22 k) (BitVec.ofNat 2 v)) s
        = .next { s with grid := s.grid.write k (BitVec.ofNat 2 v) } := by
      have hgw := hostGw_of_cell (a := BitVec.ofNat 22 k) (v := BitVec.ofNat 2 v) hb (by omega)
      rwa [haddr] at hgw
    show andThen (hostStep (.gw (BitVec.ofNat 22 k) (BitVec.ofNat 2 v)) s) (feed ((cellOps (k + 1) vs).map Input.host)) = _
    rw [hfirst, andThen_next_left]
    exact ih (s := { s with grid := s.grid.write k (BitVec.ofNat 2 v) }) hb (by simp only; omega) hport

/-- Outside a run a configuration write among the inputs is stored (R135). -/
theorem feed_wr_of_storesConfig {s t : State} {o : RegOffset} {d : Word} (hb : s.state ≠ .busy) (ht : storesConfig o d s t)
    (l : List Input) : feed (.host (.wr o d) :: l) s = feed l t := by
  have hwr : inputStep (.host (.wr o d)) s = .next t := hostWr_of_storesConfig hb ht
  rw [feed_cons, hwr, andThen_next_left]

/-- The configuration writes that the loading sequence begins with (R95, R118). -/
def configOps (m : GridModel) : List HostOp :=
  colorsOps (BitVec.ofNat 32 m.color0) (BitVec.ofNat 32 m.color1) (BitVec.ofNat 32 m.color2)
    ++ [.wr 0x008#12 (BitVec.ofNat 32 m.gridSize)]

/-- The loading sequence: the configuration writes, then the cells from address 0 on (R95, R118). -/
theorem loadOps_eq (m : GridModel) : loadOps m = configOps m ++ cellOps 0 m.pattern.flatten := by
  rw [loadOps, loadGridOps_eq, configOps, List.append_assoc]
  rfl

/-- Outside a run the four configuration writes are stored (R118, R135). -/
theorem feed_configOps {s : State} (m : GridModel) (hb : s.state ≠ .busy) :
    feed ((configOps m).map Input.host) (withInputs [] s) = .next (loadedWith s m s.grid) := by
  simp only [configOps, colorsOps, List.cons_append, List.nil_append, List.map_cons, List.map_nil]
  rw [feed_wr_of_storesConfig (by exact hb) (.inr (.inl ⟨rfl, rfl⟩)),
    feed_wr_of_storesConfig (by exact hb) (.inr (.inr (.inl ⟨rfl, rfl⟩))),
    feed_wr_of_storesConfig (by exact hb) (.inr (.inr (.inr ⟨rfl, rfl⟩))),
    feed_wr_of_storesConfig (by exact hb) (.inl ⟨rfl, rfl⟩)]
  rfl

/-- Outside a run the loading sequence leaves the model's registers and its cells in GRID (R118). -/
theorem feed_loadOps {s : State} {m : GridModel} (hb : s.state ≠ .busy)
    (hcap : m.pattern.flatten.length ≤ cellCount s.cfg) (hport : cellCount s.cfg ≤ 2 ^ 22) :
    feed ((loadOps m).map Input.host) (withInputs [] s) =
      .next (loadedWith s m (writeCells s.grid 0 m.pattern.flatten)) := by
  rw [loadOps_eq, List.map_append, feed_append, feed_configOps m hb, andThen_next_left]
  exact feed_cellOps (s := loadedWith s m s.grid) hb ((Nat.zero_add _).trans_le hcap) hport

/-! ## What loading leaves -/

/-- In a matrix whose rows have one length, cell `(i, j)` is element `i*w + j` of its cells in row-major order (R35). -/
theorem getElem?_flatten_of_square {m : List (List Nat)} {w i j : Nat} (hrows : ∀ row ∈ m, row.length = w) (hj : j < w) :
    m.flatten[i * w + j]? = entry m i j := by
  induction m generalizing i with
  | nil => rfl
  | cons row m ih =>
    obtain ⟨hrow, hrows⟩ := List.forall_mem_cons.mp hrows
    rw [List.flatten_cons]
    cases i with
    | zero =>
      rw [Nat.zero_mul, Nat.zero_add, List.getElem?_append_left (hrow.symm ▸ hj)]
      rfl
    | succ i =>
      have hpos : (i + 1) * w + j = row.length + (i * w + j) := by rw [hrow]; ring
      rw [hpos, List.getElem?_append_right (Nat.le_add_right ..), Nat.add_sub_cancel_left, ih hrows]
      rfl

/-- A square matrix of size `n` has `n * n` cells (R110). -/
theorem length_flatten_of_matrixValid {n top : Nat} {m : List (List Nat)} (h : matrixValid n top m = true) :
    m.flatten.length = n * n := by
  obtain ⟨hshape, -⟩ := matrixValid_iff.mp h
  obtain ⟨hrows, hcols⟩ := squareShape_iff.mp hshape
  rw [List.length_flatten, List.map_congr_left hcols, List.map_const', List.sum_replicate, hrows, smul_eq_mul]

/-- A cell of a matrix of a model is within the matrix's bound (R110). -/
theorem entry_le_of_matrixValid {n top i j v : Nat} {m : List (List Nat)} (h : matrixValid n top m = true)
    (hv : entry m i j = some v) : v ≤ top := by
  obtain ⟨-, hcells⟩ := matrixValid_iff.mp h
  obtain ⟨row, hrow, hv⟩ := Option.bind_eq_some_iff.mp hv
  exact hcells row (List.mem_of_getElem? hrow) v (List.mem_of_getElem? hv)

/-- The GRID memory that loading a model leaves: the pattern's cells from address 0 on, over what was there (R118). -/
def loadedGrid (s : State) (m : GridModel) : Grid := writeCells s.grid 0 m.pattern.flatten

/-- The capacity of every well-formed block (R11). -/
theorem maxGrid_le {c : Config} (h : c.wf = true) : c.maxGrid ≤ 2047 := by
  simp only [Config.wf, Bool.and_eq_true, decide_eq_true_eq] at h
  omega

section
variable {s : State} {m : GridModel} (hcfg : s.cfg.wf = true) (hm : m.valid = true) (hfits : m.gridSize ≤ s.cfg.maxGrid)

include hcfg in
/-- The address of every cell of the memory fits the port (R11, R51). -/
theorem cellCount_le_port : cellCount s.cfg ≤ 2 ^ 22 :=
  (Nat.mul_le_mul (maxGrid_le hcfg) (maxGrid_le hcfg)).trans (by decide)

include hcfg hm hfits in
/-- As many steps as the loading sequence has transactions leave the model in the block, the later inputs still to come
(R118). -/
theorem runSteps_loadOps {rest : List Input} (hb : s.state ≠ .busy) (hi : s.inputs = (loadOps m).map Input.host ++ rest) :
    runSteps (loadOps m).length s = .next (withInputs rest (loadedWith s m (loadedGrid s m))) := by
  obtain ⟨-, -, hpat, -⟩ := GridModel.valid_iff.mp hm
  have hcap : m.pattern.flatten.length ≤ cellCount s.cfg := by
    rw [length_flatten_of_matrixValid hpat]
    exact Nat.mul_le_mul hfits hfits
  have hs : s = withInputs ((loadOps m).map Input.host ++ rest) (withInputs [] s) := by
    rw [← hi]
    rfl
  have hrun := runSteps_feed ((loadOps m).map Input.host) rest (withInputs [] s)
  rw [← hs, List.length_map, feed_loadOps hb hcap (cellCount_le_port hcfg)] at hrun
  exact hrun

include hm in
/-- Loading leaves cell `(i, j)` of the pattern at address `i*G + j` (R118). -/
theorem read_loadedGrid {i j : Nat} (hi : i < m.gridSize) (hj : j < m.gridSize) :
    ∃ v, entry m.pattern i j = some v ∧ (loadedGrid s m).read (i * m.gridSize + j) = some (BitVec.ofNat 2 v) := by
  obtain ⟨-, -, hpat, -⟩ := GridModel.valid_iff.mp hm
  obtain ⟨hshape, -⟩ := matrixValid_iff.mp hpat
  obtain ⟨-, hcols⟩ := squareShape_iff.mp hshape
  obtain ⟨v, hv⟩ := exists_entry_of_matrixValid hpat hi hj
  have hcell := read_writeCells (g := s.grid) (k := 0) ((getElem?_flatten_of_square hcols hj).trans hv)
  rw [Nat.zero_add] at hcell
  exact ⟨v, hv, hcell⟩

include hm in
/-- Loading leaves every cell beyond the pattern's (R118). -/
theorem read_loadedGrid_beyond {a : Nat} (ha : m.gridSize * m.gridSize ≤ a) :
    (loadedGrid s m).read a = s.grid.read a := by
  obtain ⟨-, -, hpat, -⟩ := GridModel.valid_iff.mp hm
  exact read_writeCells_beyond (by rw [Nat.zero_add, length_flatten_of_matrixValid hpat]; exact ha)

end

/-- Settles O53: the steps are `runSteps_loadOps`, the cells `read_loadedGrid` and `read_loadedGrid_beyond`. -/
theorem loadingPutsTheModelIntoTheBlock : Obligations.LoadingPutsTheModelIntoTheBlock := by
  unfold Obligations.LoadingPutsTheModelIntoTheBlock
  intro s m hcfg hm hfits hb hi
  refine ⟨loadedGrid s m, runSteps_loadOps hcfg hm hfits hb (hi.trans (List.append_nil _).symm),
    fun i j => read_loadedGrid hm, fun a => read_loadedGrid_beyond hm⟩

/-! ## The image -/

theorem runSteps_add (j k : Nat) (s : State) : runSteps (j + k) s = andThen (runSteps j s) (runSteps k) := by
  induction j generalizing s with
  | zero => rw [Nat.zero_add]; rfl
  | succ j ih =>
    rw [Nat.add_right_comm, runSteps_succ, runSteps_succ, andThen_assoc]
    exact congrArg _ (funext ih)

/-- The state a loaded model leaves in the block, START still to come or already taken. -/
def loadedState (s : State) (m : GridModel) (rest : List Input) : State :=
  withInputs rest (loadedWith s m (loadedGrid s m))

section
variable {s : State} {m : GridModel} (hcfg : s.cfg.wf = true) (hm : m.valid = true) (hfits : m.gridSize ≤ s.cfg.maxGrid)
  (rest : List Input)

include hcfg hfits in
/-- The size register holds the model's size (R118). -/
theorem gridG_loadedState : gridG (loadedState s m rest) = m.gridSize := by
  have hmax := maxGrid_le hcfg
  exact Nat.mod_eq_of_lt (by omega)

include hcfg hm hfits in
/-- START accepts the size of a loaded model (R118, R131). -/
theorem acceptedSize_loadedState : acceptedSize (loadedState s m rest).cfg (gridG (loadedState s m rest)) = true := by
  obtain ⟨hpos, -⟩ := GridModel.valid_iff.mp hm
  have hmax := maxGrid_le hcfg
  rw [gridG_loadedState hcfg hfits]
  exact acceptedSize_iff.mpr ⟨by omega, by omega, hfits⟩

include hm in
/-- START accepts the colours of a loaded model (R112, R131). -/
theorem firstBadColour_loadedState : firstBadColour (loadedState s m rest) = none := by
  obtain ⟨-, -, -, h0, h1, h2⟩ := GridModel.valid_iff.mp hm
  have hin {c : Nat} (h : c ≤ 0xFFFFFF) : ¬0x1000000 ≤ (BitVec.ofNat 32 c).toNat := by
    rw [BitVec.toNat_ofNat, Nat.mod_eq_of_lt (by omega)]
    omega
  exact firstBadColour_eq_none (hin h0) (hin h1) (hin h2)

include hcfg hm hfits in
/-- Every cell of the run holds a value of the pattern, so it is written and not 3 (R112, R118). -/
theorem cells_loadedState :
    cellsWritten (loadedState s m rest).grid (gridG (loadedState s m rest))
      ∧ cellsInDomain (loadedState s m rest).grid (gridG (loadedState s m rest)) := by
  obtain ⟨hpos, -, hpat, -⟩ := GridModel.valid_iff.mp hm
  rw [gridG_loadedState hcfg hfits]
  have hcell (a : Nat) (ha : a < m.gridSize * m.gridSize) :
      ∃ v, v ≤ 2 ∧ (loadedState s m rest).grid.read a = some (BitVec.ofNat 2 v) := by
    obtain ⟨v, hv, hread⟩ :=
      read_loadedGrid (s := s) hm (Nat.div_lt_of_lt_mul ha) (Nat.mod_lt a hpos)
    rw [Nat.div_add_mod'] at hread
    exact ⟨v, entry_le_of_matrixValid hpat hv, hread⟩
  refine ⟨fun a ha => ?_, fun a ha => ?_⟩
  · obtain ⟨v, -, hread⟩ := hcell a ha
    rw [hread]
    exact Option.some_ne_none _
  · obtain ⟨v, hv, hread⟩ := hcell a ha
    rw [hread]
    interval_cases v <;> decide

include hcfg hm hfits in
/-- The byte and the nibble of a pixel of a loaded model: 0 on the ring of its cell, the pattern's cell inside (R188). -/
theorem exists_encByte_of_loaded_pixel {X Y : Nat} (hX : X < imageSide m.gridSize) (hY : Y < imageSide m.gridSize) :
    ∃ b v, encByte (loadedState s m rest) (74 + pixelIndex m.gridSize X Y) = some b
      ∧ entry m.pattern (Y / 32) (X / 32) = some v
      ∧ (onRing X Y → pixelNibble b X = 0) ∧ (¬onRing X Y → pixelNibble b X = v) := by
  obtain ⟨-, -, hpat, -⟩ := GridModel.valid_iff.mp hm
  have hG := gridG_loadedState (m := m) hcfg hfits rest
  obtain ⟨v, hv, hread⟩ := read_loadedGrid (s := s) hm (Nat.div_lt_of_lt_mul hY) (Nat.div_lt_of_lt_mul hX)
  have hle := entry_le_of_matrixValid hpat hv
  have hvalue : (BitVec.ofNat 2 v).toNat = v := Nat.mod_eq_of_lt (by omega)
  rw [← hG] at hX hY hread ⊢
  obtain ⟨b, hb, hring, hinside⟩ := exists_encByte_of_pixel (s := loadedState s m rest) hX hY hread
  exact ⟨b, v, hb, hv, hring, fun hin => (hinside hin).trans hvalue⟩

end

/-- The mark of a byte of the file is set on the last one only (R54). -/
theorem last_iff_of_streamByte {s : State} {n : Nat} {o : OutByte} (h : streamByte s n = some o) :
    o.last = true ↔ n = fileSize (gridG s) - 1 := by
  obtain ⟨b, -, rfl⟩ := Option.map_eq_some_iff.mp h
  exact decide_eq_true_iff

/-- Settles O55: the loading steps (`runSteps_loadOps`) reach a state whose START is accepted and runs to DONE
(`runSteps_start_to_done`) with the loaded state's file, whose pixels are `exists_encByte_of_loaded_pixel`. -/
theorem loadedModelIsEncodedAsGiven : Obligations.LoadedModelIsEncodedAsGiven := by
  unfold Obligations.LoadedModelIsEncodedAsGiven
  intro s m hcfg hm hfits hb hr hi
  have hinputs : s.inputs = (loadOps m).map Input.host ++ [.host startOp] := by rw [hi, loadAndStart, List.map_append]; rfl
  have hG := gridG_loadedState (s := s) (m := m) hcfg hfits [.host startOp]
  obtain ⟨hw, hd⟩ := cells_loadedState hcfg hm hfits [.host startOp]
  obtain ⟨run, hlen, hbytes, hend⟩ := runSteps_start_to_done (s := loadedState s m [.host startOp]) hb rfl hr
    (acceptedSize_loadedState hcfg hm hfits _) (firstBadColour_loadedState hm _) hw hd
  have hsize : run.length = fileSize m.gridSize := by rw [hlen, hG]
  refine ⟨loadedGrid s m, (loadOps m).length + (1 + (1 + run.length)), run, hsize, ?_, fun n hn => ?_, fun n o ho => ?_,
    fun X Y hX hY => ?_⟩
  · rw [runSteps_add, runSteps_loadOps hcfg hm hfits hb hinputs]
    exact hend
  · exact hbytes n hn
  · have hn : n < run.length := (List.getElem?_eq_some_iff.mp ho).1
    rw [last_iff_of_streamByte ((hbytes n hn).symm.trans ho), ← hlen]
    omega
  · obtain ⟨b, v, hb, hv, hring, hinside⟩ := exists_encByte_of_loaded_pixel hcfg hm hfits [.host startOp] hX hY
    have hn : 74 + pixelIndex m.gridSize X Y < run.length := hsize ▸ Nat.add_lt_add_left (pixelIndex_lt hX hY) 74
    have hat := (hbytes _ hn).trans (streamByte_of_encByte hb)
    refine ⟨_, v, by rw [Nat.add_assoc]; exact hat, hv, ?_⟩
    · by_cases hon : onRing X Y
      · exact (hring hon).trans (if_pos hon).symm
      · exact (hinside hon).trans (if_neg hon).symm

/-- Settles O54: the program is the loading and START of the masked model (`encodeProgram_ok`), which O55 encodes as given;
the masked cells are `entry_maskedPattern`. -/
theorem hostProgramProducesTheImage : Obligations.HostProgramProducesTheImage := by
  unfold Obligations.HostProgramProducesTheImage
  intro s r program hcfg hb hr hprogram hi
  obtain ⟨m, hm, hfits, rfl⟩ := encodeProgram_ok hprogram
  have hvalid := valid_of_construct hm
  obtain ⟨-, hmasked⟩ := mask_of_valid hvalid
  obtain ⟨g, k, run, hlen, hend, hbytes, hmarks, hpixels⟩ :=
    loadedModelIsEncodedAsGiven s (maskedModel m) hcfg hmasked hfits hb hr hi
  refine ⟨m, g, k, run, hm, hlen, hend, hbytes, hmarks, fun X Y hX hY => ?_⟩
  obtain ⟨-, hprm, hpat, -⟩ := GridModel.valid_iff.mp hvalid
  obtain ⟨v, hv⟩ := exists_entry_of_matrixValid hpat (Nat.div_lt_of_lt_mul hY) (Nat.div_lt_of_lt_mul hX)
  obtain ⟨q, hq⟩ := exists_entry_of_matrixValid hprm (Nat.div_lt_of_lt_mul hY) (Nat.div_lt_of_lt_mul hX)
  obtain ⟨o, w, ho, hw, hnibble⟩ := hpixels X Y hX hY
  obtain rfl : v * q = w := Option.some.inj ((entry_maskedPattern hv hq).symm.trans hw)
  exact ⟨o, v, q, ho, hv, hq, hnibble⟩

end Sys2Proof.Machine
end
